-- ==== Sys2Proof/Word.lean ====
section
/-! DEFINITION. The widths of the values that the Cogmara 4100 carries: bytes, 32-bit words of the host window,
fingerprints, locators, and the numbered things of the station. -/
namespace Sys2Proof

/-- A byte of a stream or of a host access. -/
abbrev Byte := BitVec 8
/-- A 32-bit word of the host window (R167). -/
abbrev Word := BitVec 32
/-- A 128-bit fingerprint (R1). -/
abbrev Fingerprint := BitVec 128
/-- A 48-bit locator (R13); 0 is no locator. -/
abbrev Locator := BitVec 48
/-- A 48-bit stream offset or byte counter (R111). -/
abbrev Offset := BitVec 48
/-- A pool, 0 to 15 (R3). -/
abbrev Pool := BitVec 4
/-- A branch, 0 to 4,095 (R2). -/
abbrev Branch := BitVec 12
/-- A station number as the 4-bit fields of straps and frames carry it (R136, R182). -/
abbrev StationNo := BitVec 4
/-- A 12-bit tag: round in bits 11..8, index in bits 7..0 (R64). -/
abbrev Tag := BitVec 12
/-- A 16-bit cookie of a host RELEASE (R65). -/
abbrev Cookie := BitVec 16
/-- A value of the 16-bit tick counter (R161). -/
abbrev Tick := BitVec 16
/-- A lane number, 0 to 31 (R111). -/
abbrev LaneNo := Fin 32
/-- The index of an outstanding entry, 0 to 255 (R63). -/
abbrev EntryIndex := Fin 256
/-- A position of the claim table, 0 to 127 (R34). -/
abbrev ClaimPos := Fin 128

end Sys2Proof
end

