-- ==== Sys2Proof/Syntax.lean ====
section
/-! DEFINITION. The commands of the block: one constructor for each row of spec/opcode_table.json. A row's operands
are what reaches the station from outside at that event (a host access, a host memory completion, what the index bus
shows) or, where several events of one row are possible at once, which of them is meant (a claim position, an entry
index, a hand-on path). What an event reads from a queue of the station it takes no operand for. -/
namespace Sys2Proof

/-- The two hand-on paths of the exchange unit (R71). -/
inductive HandOnPath
  /-- Delivery into the station's own index work queue. -/
  | self
  /-- The transmit queue of the bus interface. -/
  | bus
deriving DecidableEq, Repr

/-- The commands (events) of spec/opcode_table.json. -/
inductive Instr
  /-- COLD_RESET: the COLD pin is asserted (R183). -/
  | coldReset
  /-- WARM_RESET: the WARM pin is asserted (R183). -/
  | warmReset
  /-- COLD_RELEASE: COLD is released with these levels on the strap pins (R182). -/
  | coldRelease (number clusterSize : BitVec 4) (averageChunk : BitVec 2) (tickTap : BitVec 3) (lineRate : BitVec 2)
  /-- STAGING_WRITE: a host write of staging word `index`; `bytes` says which of its four bytes are written (R168). -/
  | stagingWrite (index : Fin 16) (bytes : BitVec 4) (value : Word)
  /-- REPORT_WORD_READ: a host read of the report word, asking for `bytes` (R175). -/
  | reportWordRead (bytes : BitVec 4)
  /-- STATUS_WORD_READ: a host read of the status word, asking for `bytes` (R178). -/
  | statusWordRead (bytes : BitVec 4)
  /-- POOL_SET: the command unit decides a POOL_SET at the head of the command FIFO (R4). -/
  | poolSet
  /-- CONFIGURE at the head of the command FIFO (R172). -/
  | configure
  /-- START at the head of the command FIFO (R185). -/
  | start
  /-- STATS at the head of the command FIFO (R189). -/
  | stats
  /-- UNKNOWN_COMMAND: an entry not of Table 10.2 at the head of the command FIFO (R171). -/
  | unknownCommand
  /-- OPEN at the head of the command FIFO (R118). -/
  | openLane
  /-- SEGMENT at the head of the command FIFO (R114). -/
  | segment
  /-- STORED at the head of the command FIFO (R120). -/
  | stored
  /-- STORE_FAILED at the head of the command FIFO (R121). -/
  | storeFailed
  /-- CLOSE at the head of the command FIFO (R127). -/
  | close
  /-- SUSPEND at the head of the command FIFO (R127). -/
  | suspend
  /-- RESUME at the head of the command FIFO (R119). -/
  | resume
  /-- ABORT at the head of the command FIFO (R129). -/
  | abort
  /-- RELEASE at the head of the command FIFO (R172). -/
  | release
  /-- LEASE_TICK: the tick divider reaches the tick length (R161). -/
  | leaseTick
  /-- LEASE_DEADLINE: the index unit acts on the lease deadline of the claim at `pos` (R53). -/
  | leaseDeadline (pos : ClaimPos)
  /-- LEASE_EXPIRY: the index unit takes a due claim's expiry (R54). -/
  | leaseExpiry
  /-- ASK at the head of the index work queue (R45). -/
  | ask
  /-- COMMIT at the head of the index work queue (R49). -/
  | commit
  /-- DROP at the head of the index work queue (R52). -/
  | drop
  /-- RELEASE_ITEM: a RELEASE item at the head of the index work queue (R57). -/
  | releaseItem
  /-- PEER_LOST: a PEER-LOST item at the head of the index work queue (R58). -/
  | peerLost
  /-- PEER_RESTARTED: a PEER-RESTARTED item at the head of the index work queue (R58). -/
  | peerRestarted
  /-- BUCKET_WRITE_DONE: the operation's bucket write-back completes (R23). -/
  | bucketWriteDone
  /-- ANSWER_HAND_ON: the index unit hands on its next answer (R43). -/
  | answerHandOn
  /-- WORK_QUEUE_ADMIT: the index work queue admits one waiting item (R39). -/
  | workQueueAdmit
  /-- SCRUB_WRITE_DONE: a bucket write of the scrub completes (R28). -/
  | scrubWriteDone
  /-- BURST_ISSUE: the chunker arbiter issues a burst; `busMaster` is the endpoint's bus master enable (R102, R179). -/
  | burstIssue (busMaster : Bool)
  /-- FETCH_READ_COMPLETION: the link completes (part of) read request `request`: `data` starts at byte `offset` of the
  burst and `good` says that completion status and data are good (R179). -/
  | fetchReadCompletion (request offset : Nat) (data : List Byte) (good : Bool)
  /-- FETCH_TIMEOUT: read request `request` has had no completion within 50 ms (R179). -/
  | fetchTimeout (request : Nat)
  /-- BURST_COMPLETION: the fetch engine returns the burst in flight (R103). -/
  | burstCompletion
  /-- DIGEST_START: the idle digest engine takes the head of the digest FIFO (R109). -/
  | digestStart
  /-- DIGEST_COMPLETION: the digest engine finishes its chunk (R116). -/
  | digestCompletion
  /-- TAG_GRANT: the head of the tag wait queue is granted (R70). -/
  | tagGrant
  /-- REQUEST_HAND_ON: a PENDING request is handed on by one of the two paths (R71). -/
  | requestHandOn (path : HandOnPath)
  /-- ANSWER_DEADLINE: the exchange unit acts on the answer deadline of entry `index` (R73). -/
  | answerDeadline (index : EntryIndex)
  /-- HOLD_DEADLINE: the hold deadline of entry `index` (R77). -/
  | holdDeadline (index : EntryIndex)
  /-- ORPHAN_HOLD_DEADLINE: the orphan hold deadline of entry `index` (R88). -/
  | orphanHoldDeadline (index : EntryIndex)
  /-- EXCHANGE_REPORT_READY: the exchange unit makes its next owed report ready (R83). -/
  | exchangeReportReady
  /-- LANE_REPORT_READY: the lane unit makes its next report ready (R125). -/
  | laneReportReady
  /-- REPORT_APPEND: the report arbiter appends its choice (R176). -/
  | reportAppend
  /-- CONTENTION: this station has read `idle` idle cells in a row since it last entered RUNNING, and it sends its start mark
  with the stations whose precedence values are `rivals` (R139, R140, R151). -/
  | contention (idle : Nat) (rivals : List (BitVec 6))
  /-- ATTEMPT_END: the attempt on the line ends. `levels` are the second halves read back from the type field to the check
  field, true for recessive; cells past the list read as sent. `acknowledged` says that the acknowledge cell reads
  dominant (R141, R144). -/
  | attemptEnd (levels : List Bool) (acknowledged : Bool)
  /-- YIELD_CLEAR: the line has shown `idle` idle cells in a row (R142). -/
  | yieldClear (idle : Nat)
  /-- FRAME_RECEIVED: a frame whose cells from class to check read as `cells` (true for a 1) reaches its acknowledge cell
  (R146). `idle` counts the idle cells in a row that this station has itself read, since it last entered RUNNING, right
  before the start mark; it is 0 for a frame already on the line at that entry, whose start mark it did not see (R151,
  assumption 28). -/
  | frameReceived (idle : Nat) (cells : List Bool)
  /-- FRAME_ABANDONED: a frame meets a cell with no pulse (R135); `idle` as for FRAME_RECEIVED (R151, assumption 28). -/
  | frameAbandoned (idle : Nat)
  /-- INBOUND_DISPATCH: the head of the inbound queue is dispatched (R148). -/
  | inboundDispatch
  /-- SILENCE_DEADLINE: the roster acts on the silence deadline of `peer` (R156). -/
  | silenceDeadline (peer : BitVec 4)
  /-- PEER_SILENT: the roster takes a change to SILENT (R156). -/
  | peerSilent
  /-- PEER_JOIN: the roster takes a change to SERVING (R155). -/
  | peerJoin
  /-- BEACON_TAKEN: the roster takes the beacon at the inbound head (R157). -/
  | beaconTaken
  /-- CONFLICT_REPORT: the roster makes an owed conflict report ready (R159). -/
  | conflictReport
  /-- BEACON_DUE: the beacon deadline is reached (R160). -/
  | beaconDue
  /-- COMMAND_WORD_WRITE: a host write of the command word; bytes not in `bytes` are taken as zero (R169, R167). -/
  | commandWordWrite (bytes : BitVec 4) (value : Word)
  /-- WARM_RELEASE: the WARM pin is released (R183). -/
  | warmRelease
deriving DecidableEq, Repr

end Sys2Proof
end

