-- ==== Sys2Proof/Decode.lean ====
section
/-! DEFINITION. The command that a word spells by the opcode table's bits. The table of this block gives no row any bits
(every row's "fields" is empty and none has "fixed"), so no word spells a command. -/
namespace Sys2Proof

/-- The command that the word `w` of `nbits` bits spells: none, since no row of spec/opcode_table.json gives bits. -/
def decodeTableWord (_nbits _w : Nat) : Option Instr := none

end Sys2Proof
end

