-- ==== Sys2Proof/Config.lean ====
section
/-! DEFINITION. What one CG4100 fixes: the capacities and timing constants of the manual, and the values that the
manual leaves open (opaque: nothing in Lean can see them). -/
namespace Sys2Proof.Config

/-- The fingerprint function, "a fixed mapping from a byte sequence to such a value" whose internals the manual does
not specify (section 1.1, R1). Every station computes the same function, so it is one constant. -/
opaque fingerprint : List Byte → Fingerprint

/-- FREE VALUE. Which bits of one place of a bucket record a write cut short by a reset had already replaced (R33):
`tornPlace k p` is the mask of place `p` for the `k`-th torn write. All zeros keeps the old place, all ones takes the
new one, anything else is a mixture. See assumption 3. -/
opaque tornPlace : Nat → Nat → BitVec 197

/-- FREE VALUE. Whether the bucket that the `k`-th torn write leaves carries the check code of the new contents (true)
or of the old (false) (R33: "with the check code of either"). -/
opaque tornCodeIsNew : Nat → Bool

/-- FREE VALUE. The levels of the fifteen strap pins at the `k`-th reading while COLD is asserted (R182), in the order of
Table 11.1, station number first: no command carries them. See assumption 19. -/
opaque strapLevels : Nat → BitVec 15

/-- Buckets of the shard table (R14). -/
def buckets : Nat := 524288
/-- Places of a bucket (R14). -/
def placesPerBucket : Nat := 8
/-- A reference count at which an entry is pinned (R18). -/
def pinnedCount : BitVec 16 := 65535
/-- Pairs on a claim's waiter list (R35). -/
def maxWaiters : Nat := 6
/-- Places of the index work queue (R38). -/
def workQueueMax : Nat := 32
/-- Places of the transmit queue (R138). -/
def transmitMax : Nat := 48
/-- Places of the inbound queue (R148). -/
def inboundMax : Nat := 16
/-- Entries of the command FIFO (R169). -/
def commandFifoMax : Nat := 32
/-- Words of the report FIFO (R175). -/
def reportFifoMax : Nat := 1024
/-- Descriptors of a segment queue (R113). -/
def segmentQueueMax : Nat := 8
/-- Slots of a recipe window (R115). -/
def windowMax : Nat := 64
/-- Host release requests that may wait in the tag wait queue (R69). -/
def hostReleaseMax : Nat := 64
/-- The longest segment (R113). -/
def segmentMax : Nat := 1048576
/-- Bytes of the rolling-hash window (R98). -/
def historyMax : Nat := 48
/-- Exchange attempts of an ASK or COMMIT (R72). -/
def exchangeAttempts : Nat := 3

/-- Lease of a claim in ticks (Table 9.2, R53). -/
def leaseTicks : Tick := 64
/-- Answer deadline in ticks (Table 9.2, R72). -/
def answerTicks : Tick := 6
/-- Hold deadline in ticks (Table 9.2, R75). -/
def holdTicks : Tick := 160
/-- Orphan hold deadline in ticks (Table 9.2, R84). -/
def orphanTicks : Tick := 64
/-- Beacon period in ticks (Table 9.2, R160). -/
def beaconTicks : Tick := 16
/-- Silence period in ticks (Table 9.2, R156). -/
def silenceTicks : Tick := 48

/-- The multiplier of the rolling hash (R98). -/
def hashMultiplier : Word := 15133
/-- P = 15,133^48 mod 2^32 (R98). -/
def hashOutFactor : Word := BitVec.ofNat 32 (15133 ^ 48)

/-- The average chunk size A for a strap value (Table 5.1, R96). -/
def averageChunk (strap : BitVec 2) : Nat := 2048 * 2 ^ strap.toNat
/-- The minimum chunk and longest burst, A/4 (R96). -/
def minChunk (a : Nat) : Nat := a / 4
/-- The maximum chunk, 4A (R96). -/
def maxChunk (a : Nat) : Nat := 4 * a
/-- The length of one tick in periods of the reference clock, 2^(10+2k) (R162). -/
def tickLength (tap : BitVec 3) : Nat := 2 ^ (10 + 2 * tap.toNat)
/-- Cells per second on the index bus for a line-rate strap value (R134, Table 11.7). -/
def cellsPerSecond (rate : BitVec 2) : Nat :=
  match rate.toNat with
  | 0 => 1000000
  | 1 => 2000000
  | 2 => 5000000
  | _ => 10000000

end Sys2Proof.Config
end

