-- ==== Sys2Proof/Machine/Records.lean ====
section
/-! DEFINITION. The records that the blocks of the station hold: the manual's tables of fields, as plain data. -/
namespace Sys2Proof.Machine

/-! ### Keys and pairs -/

/-- A key: the pair (pool, fingerprint) (R7). -/
structure Key where
  pool : Pool
  fp : Fingerprint
deriving DecidableEq, Repr

/-- A party to a conversation: station and 12-bit tag (Conventions; R35). -/
structure Pair where
  station : StationNo
  tag : Tag
deriving DecidableEq, Repr

/-! ### The shard table (chapter 2) -/

/-- One place of a bucket as table memory holds it: used marker and four fields (R15, R17). The record can hold an
ill-formed content, which R16 finds. -/
structure Place where
  used : Bool := false
  pool : Pool := 0
  fp : Fingerprint := 0
  locator : Locator := 0
  count : BitVec 16 := 0
deriving DecidableEq, Repr

/-- A bucket record: eight places and a check code (R14). -/
structure Bucket where
  places : Vector Place 8
  code : BitVec 16
deriving DecidableEq, Repr

/-- Table memory (R14): the buckets that differ from what an unlisted bucket reads as, by rising index. `horizon` is the
model's own: every bucket below it has been written by a scrub, so an unlisted one reads as empty; an unlisted bucket at
or above it has never been written since table memory was powered. See assumption 2. -/
structure ShardTable where
  cells : List (Nat × Bucket)
  horizon : Nat
deriving DecidableEq, Repr

/-! ### Reasons and outcomes (Table 10.7) -/

/-- Why a chunk is unindexed (Table 10.7, RECIPE reason codes 1 to 9). -/
inductive Reason
  | waitersFull | claimsFull | bucketFull | poolIsolated | ownerAbsent | ownerRestarted | noAnswer | holdExpired
  | notIndexed
deriving DecidableEq, Repr

/-- The reasons a VERDICT NOINDEX can carry (Table 7.3). -/
inductive NoindexReason
  | waitersFull | claimsFull | bucketFull | poolIsolated
deriving DecidableEq, Repr

/-- The kind of a resolved slot (Table 6.4); an UNINDEXED slot carries its reason. -/
inductive Kind
  | dup | new | unindexed (reason : Reason) | doubt
deriving DecidableEq, Repr

/-- Why a lane was aborted (R129). -/
inductive AbortReason
  | host | storeFailed | fetchError
deriving DecidableEq, Repr

/-- What a RELEASE-REPLY carries (Table 7.3). -/
inductive ReleaseOutcome
  | pinned | counted | retired | notFound
deriving DecidableEq, Repr

/-- What a RELEASED report carries (Table 10.7). -/
inductive ReleasedOutcome
  | reply (outcome : ReleaseOutcome) | undelivered | uncertain
deriving DecidableEq, Repr

/-- The errors of CMD_ERROR (Table 10.4). -/
inductive CmdErrorCode
  | unknownCommand | badState | locked | laneBusy | laneFree | laneEnding | queueFull | badLength | badLocator | notStoring
deriving DecidableEq, Repr

/-- The event of a PEER report; a conflict carries its cause, and CLUSTER_SIZE the size heard (R154). -/
inductive PeerEvent
  | joined | returned | silent | restarted | conflictOwnNumber | conflictClusterSize (heard : BitVec 4)
deriving DecidableEq, Repr

/-! ### Lanes (chapter 6) -/

/-- The parked record (Table 6.6). The lane record holds the same fields, so a lane embeds one. -/
structure ParkedRecord where
  stream : Word := 0
  branch : Branch := 0
  offset : Offset := 0
  nextRecipe : Word := 0
  nextSegment : Word := 0
  chunks : Offset := 0
  dupBytes : Offset := 0
  newBytes : Offset := 0
  unindexedBytes : Offset := 0
  doubtChunks : Word := 0
deriving DecidableEq, Repr

/-- A segment descriptor (Table 6.3). -/
structure Descriptor where
  seq : Word
  address : BitVec 64
  length : Nat
  endOffset : Offset
  consumed : Nat
deriving DecidableEq, Repr

/-- The state of a slot (Table 6.5). STORING carries its indexed marker (`none` is indexed, `some r` is unindexed with
reason `r`) and its STORE owed marker; RESOLVED carries its kind. -/
inductive SlotState
  | filling | digesting | lookup | asking | holding
  | storing (unindexed : Option Reason) (storeOwed : Bool)
  | committing
  | resolved (kind : Kind)
deriving DecidableEq, Repr

/-- A slot of a recipe window (Table 6.4). -/
structure Slot where
  seq : Word
  offset : Offset
  length : Nat
  fp : Option Fingerprint
  locator : Option Locator
  state : SlotState
deriving DecidableEq, Repr

/-- The state of a lane (R112). -/
inductive LaneState
  | free | openLane | closing | suspending
deriving DecidableEq, Repr

/-! ### Reports (Table 10.6) -/

/-- A report, by kind, with the contents that Table 10.6 lays out. -/
inductive Report
  | started (scrubRun : Bool) (number size : BitVec 4)
  | startRefused (number size : BitVec 4)
  | opened (lane : LaneNo) (record : ParkedRecord) (pool : Pool)
  | store (lane : LaneNo) (seq : Word) (offset : Offset) (length : Nat) (fp : Fingerprint)
  | recipe (lane : LaneNo) (seq : Word) (offset : Offset) (length : Nat) (fp : Fingerprint) (kind : Kind)
      (locator : Locator)
  | segmentDone (lane : LaneNo) (seq : Word)
  | closed (lane : LaneNo) (record : ParkedRecord)
  | parked (lane : LaneNo) (record : ParkedRecord)
  | aborted (lane : LaneNo) (stream : Word) (reason : AbortReason) (lastSeq : Word) (releasePoint : Offset)
  | reclaim (lane : LaneNo) (key : Key) (locator : Locator)
  | doubt (lane : LaneNo) (key : Key) (locator : Locator)
  | released (outcome : ReleasedOutcome) (locator : Locator) (cookie : Cookie)
  | peer (event : PeerEvent) (station : StationNo)
  | bucketLost (bucket : Nat)
  | stats (counters : Vector Word 24)
  | cmdError (lane : LaneNo) (code : Byte) (error : CmdErrorCode)
deriving DecidableEq, Repr

/-- A lane record (Table 6.1). `record` holds stream id, branch, byte offset, the two next sequence numbers and the five
counters. -/
structure Lane where
  state : LaneState := .free
  record : ParkedRecord := {}
  pool : Pool := 0
  segments : List Descriptor := []
  window : List Slot := []
  openedOwed : Bool := false
  abortList : List Report := []
deriving DecidableEq, Repr

/-! ### Chunker and fetch engine (chapter 5, section 10.4) -/

/-- A chunking context (R97). `absorbed` is the digest state: the bytes the fingerprint function has absorbed, newest
first. -/
structure Context where
  hash : Word := 0
  n : Nat := 0
  history : List Byte := []
  absorbed : List Byte := []
deriving DecidableEq, Repr

/-- The record of the burst in flight (R102). -/
structure Burst where
  lane : LaneNo
  segment : Word
  length : Nat
  void : Bool
deriving DecidableEq, Repr

/-- An entry of the digest FIFO (R108). -/
structure DigestEntry where
  lane : LaneNo
  seq : Word
  length : Nat
  absorbed : List Byte
deriving DecidableEq, Repr

/-- The chunk in flight in the digest engine (R109). -/
structure DigestJob where
  entry : DigestEntry
  void : Bool
deriving DecidableEq, Repr

/-- How a memory read request ended (R179). -/
inductive FetchResult
  | good | error | timeout
deriving DecidableEq, Repr

/-- A memory read request of the fetch engine (R179): `offset` is the place of its first byte in the burst, `data` the
bytes that have arrived. `id` is the model's name for the request on the link. -/
structure FetchRequest where
  id : Nat
  address : BitVec 64
  offset : Nat
  data : List (Option Byte)
  result : Option FetchResult
deriving DecidableEq, Repr

/-- The burst that the fetch engine handles (R179): either rejected by the checks before reading, or its requests. -/
structure Fetch where
  address : BitVec 64
  length : Nat
  rejected : Bool
  requests : List FetchRequest
deriving DecidableEq, Repr

/-! ### Exchange unit (chapter 4) -/

/-- The kind of a request or work item between asker and owner (R65). -/
inductive RequestKind
  | ask | commit | drop | release
deriving DecidableEq, Repr

/-- The phase of a request (R65). -/
inductive Phase
  | pending | sent | acked | delivered
deriving DecidableEq, Repr

/-- The origin of an orphan (R65). -/
inductive Origin
  | ask | hold | doubtCommit | abortCommit
deriving DecidableEq, Repr

/-- The state of an outstanding entry (Table 4.2); ORPHAN carries its origin. -/
inductive EntryState
  | free | asking | holding | storing | committing | resolved | releasing | orphan (origin : Origin)
deriving DecidableEq, Repr

/-- The kind of an outstanding entry (Table 4.1). -/
inductive EntryKind
  | askExchange | hostRelease | compensation
deriving DecidableEq, Repr

/-- The sort of an entry's deadline (Table 4.1). -/
inductive DeadlineSort
  | answer | hold | orphanHold
deriving DecidableEq, Repr

/-- A report that an entry owes (Table 4.1). -/
inductive OwedReport
  | reclaim (locator : Locator) | doubt (locator : Locator) | released (outcome : ReleasedOutcome)
deriving DecidableEq, Repr

/-- What an entry is bound to: a lane and a recipe sequence number (R65). -/
structure Binding where
  lane : LaneNo
  seq : Word
deriving DecidableEq, Repr

/-- An outstanding entry (Table 4.1). The index is its position in the list; the other part of its tag is `round`.
`attempts` is 0 where the attempt count is absent. A FREE entry holds its round and every other field at the default. -/
structure Entry where
  round : BitVec 4 := 0
  state : EntryState := .free
  kind : EntryKind := .askExchange
  owner : StationNo := 0
  key : Key := ⟨0, 0⟩
  locator : Option Locator := none
  cookie : Option Cookie := none
  binding : Option Binding := none
  request : Option (RequestKind × Phase) := none
  attempts : Nat := 0
  ackedOnce : Bool := false
  deadline : Option (DeadlineSort × Tick) := none
  owed : Option OwedReport := none
  closing : Bool := false
deriving DecidableEq, Repr

/-- A request of the tag wait queue (R69). -/
inductive TagRequest
  | lookup (lane : LaneNo) (seq : Word) (key : Key) (owner : StationNo)
  | hostRelease (key : Key) (locator : Locator) (cookie : Cookie) (owner : StationNo)
deriving DecidableEq, Repr

/-- The request that a hand-on path has offered to a full queue (R71): entry, round and kind. -/
structure Offer where
  index : EntryIndex
  round : BitVec 4
  kind : RequestKind
deriving DecidableEq, Repr

/-! ### Index unit (chapter 3) -/

/-- A claim (Table 3.1). The due marker is `some n` when set, with `n` the number of advances of the lease clock since
START at which it was set: R40 takes the claim that became due earliest. -/
structure Claim where
  key : Key
  bucket : Nat
  writer : Pair
  deadline : Tick
  due : Option Nat
  waiters : List Pair
deriving DecidableEq, Repr

/-- A work item (Table 3.2). -/
inductive WorkItem
  | ask (sender : Pair) (key : Key)
  | commit (sender : Pair) (key : Key) (locator : Locator)
  | drop (sender : Pair) (key : Key)
  | release (sender : Pair) (key : Key) (locator : Locator)
  | peerLost (peer : StationNo)
  | peerRestarted (peer : StationNo)
deriving DecidableEq, Repr

/-- The contents of a VERDICT (Table 3.3). -/
inductive Verdict
  | known (locator : Locator) | write | hold | noindex (reason : NoindexReason)
deriving DecidableEq, Repr

/-- The contents of a NOTICE (Table 3.3). -/
inductive Notice
  | known (locator : Locator) | write
deriving DecidableEq, Repr

/-- The contents of a COMMIT-REPLY (Table 3.3). -/
inductive CommitReply
  | indexed | superseded (locator : Locator) | notIndexed
deriving DecidableEq, Repr

/-- An answer of an owner (R41). -/
inductive AnswerBody
  | verdict (v : Verdict) | notice (n : Notice) | commitReply (r : CommitReply) | releaseReply (o : ReleaseOutcome)
deriving DecidableEq, Repr

/-- An answer and the pair it is addressed to (R41). -/
structure Answer where
  dest : Pair
  body : AnswerBody
deriving DecidableEq, Repr

/-- The release record the index unit keeps for a sender (R57). -/
structure ReleaseRecord where
  tag : Tag
  key : Key
  locator : Locator
  reply : ReleaseOutcome
deriving DecidableEq, Repr

/-- The sources of the index work queue (R39). -/
inductive Source
  | bus | exchange | roster
deriving DecidableEq, Repr

/-! ### Index bus (chapter 7) -/

/-- The body of a frame, by type (Table 7.2). -/
inductive FrameBody
  | answer (a : AnswerBody)
  | commit (key : Key) (locator : Locator)
  | drop (key : Key)
  | release (key : Key) (locator : Locator)
  | ask (key : Key)
  | beacon (fresh : Bool) (size : BitVec 4)
deriving DecidableEq, Repr

/-- A frame: the fields its sender fills in (Table 7.1). Class and type follow from the body. -/
structure Frame where
  sender : StationNo
  dest : StationNo
  tag : Tag
  body : FrameBody
deriving DecidableEq, Repr

/-- The blocks that give frames (R138). -/
inductive TxProducer
  | index | exchange | roster
deriving DecidableEq, Repr

/-- Where a queued frame stands: waiting, on the line, or on the line and named by a purge (R150). -/
inductive LineMark
  | waiting | onLine | onLinePurged
deriving DecidableEq, Repr

/-- A frame of the transmit queue (R138). -/
structure TxFrame where
  frame : Frame
  producer : TxProducer
  attempts : Nat
  mark : LineMark
deriving DecidableEq, Repr

/-! ### Roster (chapter 8) -/

/-- The presence of a peer (Table 8.1). -/
inductive PeerState
  | absent | serving | silent
deriving DecidableEq, Repr

/-- A peer record (Table 8.1). -/
structure Peer where
  state : PeerState := .absent
  lastHeard : Tick := 0
  heard : Bool := false
  silence : Bool := false
  beaconSeen : Bool := false
deriving DecidableEq, Repr

/-- An owed conflict report (R159): cause OWN_NUMBER, or CLUSTER_SIZE with the peer and the size heard. -/
inductive OwedConflict
  | ownNumber
  | clusterSize (station : StationNo) (heard : BitVec 4)
deriving DecidableEq, Repr

/-! ### Lease clock, stream port, station control -/

/-- A deadline reached at the present advance of the lease clock and not yet acted on (R164). -/
inductive Deadline
  | claim (pos : ClaimPos) | entry (index : EntryIndex) | peer (station : StationNo) | beacon
deriving DecidableEq, Repr

/-- An entry of the command FIFO (R169). -/
structure CmdEntry where
  header : Word
  args : List Word
deriving DecidableEq, Repr

/-- The report producers in the arbiter's order (R176). -/
inductive Producer
  | control | command | lane | exchange | roster | index
deriving DecidableEq, Repr

/-- The state of the station (R183). -/
inductive StationState
  | config | scrub | running
deriving DecidableEq, Repr

/-- The straps held (Table 11.1). -/
structure Straps where
  number : BitVec 4
  clusterSize : BitVec 4
  averageChunk : BitVec 2
  tickTap : BitVec 3
  lineRate : BitVec 2
deriving DecidableEq, Repr

/-- The twenty-four statistics counters in the order of Table 11.5. -/
inductive Counter
  | framesSent | framesReceived | checkFailures | framesRefused | sendFailures | lateFrames
  | staleDrops | claimsCreated | promotions | leaseExpiries | knownVerdicts | writeVerdicts
  | unindexedWaitersFull | unindexedClaimsFull | unindexedBucketFull | unindexedPoolIsolated | unindexedOwnerAbsent
  | unindexedOwnerRestarted | unindexedNoAnswer | unindexedHoldExpired | unindexedNotIndexed
  | bucketsLost | conflicts | compensationsLost
deriving DecidableEq, Repr

end Sys2Proof.Machine
end

