-- ==== Sys2Proof/Machine/State.lean ====
section
/-! DEFINITION. The state of the station, block by block as Table 0.1 divides it, and the state after reset. -/
namespace Sys2Proof.Machine

/-- Station control (chapter 11): state, straps, pool table and its lock, scrub-owed marker, statistics counters, its
report and the STARTED it may owe besides (R187). The pool table lists the branches whose pool is not 0, by rising
branch. `coldPin` and `warmPin` say that the pin is asserted (R183). `strapReads` (the model's own) counts the readings of
the strap pins while COLD is asserted: the free value of their levels is applied to it (R182). -/
structure Control where
  coldPin : Bool
  warmPin : Bool
  straps : Straps
  state : StationState
  pools : List (Nat × Pool)
  lock : Bool
  scrubOwed : Bool
  counters : Vector Word 24
  ready : Option Report
  startedOwed : Option Bool
  strapReads : Nat
deriving DecidableEq, Repr

/-- The stream port (chapter 10), less the fetch engine: staging area, command FIFO and command unit, report FIFO and
arbiter, status. `arbiterLast` is the arbiter's pointer and `arbiterChoice` a chosen report that waits for room (R176).
`readData` is the word the window last returned to the host. -/
structure Port where
  staging : Vector Word 16
  fifo : List CmdEntry
  overrun : Bool
  cmdReady : Option Report
  reports : List Word
  threshold : Nat
  arbiterLast : Producer
  arbiterChoice : Option Producer
  readData : Word
deriving DecidableEq, Repr

/-- The fetch engine (section 10.4). `busMaster` is the endpoint's bus master enable as the link last presented it, and
`nextRequest` the model's name for the next read request on the link; neither is changed by a reset (R180). -/
structure FetchEngine where
  busMaster : Bool
  nextRequest : Nat
  burst : Option Fetch
deriving DecidableEq, Repr

/-- The lane unit (chapter 6): the lane records, the report it holds ready, and the lane at which the next search of R125
starts. -/
structure LaneUnit where
  lanes : Vector Lane 32
  ready : Option Report
  next : LaneNo
deriving DecidableEq, Repr

/-- The chunker (chapter 5): the lanes' contexts, the arbiter pointer, the burst in flight, the digest FIFO and the chunk
in the digest engine. -/
structure Chunker where
  contexts : Vector Context 32
  pointer : LaneNo
  burst : Option Burst
  digests : List DigestEntry
  engine : Option DigestJob
deriving DecidableEq, Repr

/-- The exchange unit (chapter 4): the outstanding list, the tag wait queue, the report it holds ready, the indices at
which the two hand-on paths and the report choice begin their next search, and the requests the paths have offered to
full queues (R71, R83). -/
structure Exchange where
  entries : Vector Entry 256
  waitQueue : List TagRequest
  ready : Option Report
  nextSelf : EntryIndex
  nextBus : EntryIndex
  nextReport : EntryIndex
  offerSelf : Option Offer
  offerBus : Option Offer
deriving DecidableEq, Repr

/-- The index unit (chapters 2 and 3): claim table, index work queue with its last admitted source (R39), release records
(R57), the write-back in flight, the answers not yet handed on, the BUCKET_LOST held (R24), the scrub's bucket in flight
(R28), and the shard table in table memory. -/
structure IndexUnit where
  claims : Vector (Option Claim) 128
  queue : List WorkItem
  admittedLast : Source
  records : Vector (Option ReleaseRecord) 15
  write : Option (Nat × Bucket)
  answers : List Answer
  ready : Option Report
  scrub : Option Nat
  table : ShardTable
deriving DecidableEq, Repr

/-- The bus interface (chapter 7): transmit queue, inbound queue, yield state, the admission turn of R138 (`txLast`), the
index unit waiting with a frame for a full transmit queue (`indexWaits`, R43), the inbound head waiting for a full index
work queue (`inboundWaits`, R39), the cells this station last drove for a frame of its own, and whether it drove the last
acknowledge cell it decided. -/
structure Bus where
  tx : List TxFrame
  inbound : List Frame
  yield : Bool
  txLast : TxProducer
  indexWaits : Bool
  inboundWaits : Bool
  sentCells : List Bool
  ackDriven : Bool
deriving DecidableEq, Repr

/-- The roster (chapter 8): the peer table, its PEER report, the PEER item the index work queue has not yet admitted, the
position at which its next search begins (R154), and the state of R159 and R160. -/
structure Roster where
  peers : Vector Peer 15
  ready : Option Report
  held : Option WorkItem
  next : Fin 15
  conflictOwed : Option OwedConflict
  conflictFlag : Bool
  beaconDeadline : Option Tick
  beaconQueued : Bool
  fresh : Bool
deriving DecidableEq, Repr

/-- The lease clock (chapter 9). `advances` (the model's own) counts the advances since START without wrapping;
`reached` (the model's own) lists the deadlines reached at the present advance and not yet acted on (R164). -/
structure Clock where
  running : Bool
  now : Tick
  divider : Nat
  advances : Nat
  reached : List Deadline
deriving DecidableEq, Repr

/-- The whole station. `torn` (the model's own) counts the bucket writes that resets have cut short: the free values of
Config are applied to it. -/
structure Station where
  control : Control
  port : Port
  fetch : FetchEngine
  lane : LaneUnit
  chunker : Chunker
  exchange : Exchange
  index : IndexUnit
  bus : Bus
  roster : Roster
  clock : Clock
  torn : Nat
deriving DecidableEq, Repr

/-- The machine: the station and the queue of commands that wait, first in, first out. -/
structure State where
  station : Station
  pending : List Instr
deriving DecidableEq, Repr

/-- No command of this block stops the machine with a fault: nothing in the manual stops the station. -/
inductive Fault
deriving DecidableEq, Repr

/-- Why a command has no meaning in the model. -/
inductive Refusal
  /-- Raised by `exec` for a command that the model gives no meaning (none at present). Safe: the machine stops. -/
  | notModelled (mnemonic : String)
deriving DecidableEq, Repr

/-! ### The state of each block after reset -/

/-- The stream port after a cold or warm reset (R168, R169, R172, R175, R176, R178). -/
def Port.reset : Port where
  staging := Vector.replicate 16 0
  fifo := []
  overrun := false
  cmdReady := none
  reports := []
  threshold := 1
  arbiterLast := .index
  arbiterChoice := none
  readData := 0

/-- The lane unit after a cold or warm reset (R111, R133). -/
def LaneUnit.reset : LaneUnit where
  lanes := Vector.replicate 32 {}
  ready := none
  next := 0

/-- The chunker after a cold or warm reset (R97, R101, R102, R108, R109). -/
def Chunker.reset : Chunker where
  contexts := Vector.replicate 32 {}
  pointer := 0
  burst := none
  digests := []
  engine := none

/-- The exchange unit after a cold or warm reset (R63, R69, R95). -/
def Exchange.reset : Exchange where
  entries := Vector.replicate 256 {}
  waitQueue := []
  ready := none
  nextSelf := 0
  nextBus := 0
  nextReport := 0
  offerSelf := none
  offerBus := none

/-- The index unit after a cold or warm reset, with this table memory (R34, R38, R39, R57, R61). -/
def IndexUnit.reset (table : ShardTable) : IndexUnit where
  claims := Vector.replicate 128 none
  queue := []
  admittedLast := .roster
  records := Vector.replicate 15 none
  write := none
  answers := []
  ready := none
  scrub := none
  table := table

/-- The bus interface after a cold or warm reset (R138, R142, R148, R151). -/
def Bus.reset : Bus where
  tx := []
  inbound := []
  yield := false
  txLast := .exchange
  indexWaits := false
  inboundWaits := false
  sentCells := []
  ackDriven := false

/-- The roster after a cold or warm reset (R153, R154, R159, R160). -/
def Roster.reset : Roster where
  peers := Vector.replicate 15 {}
  ready := none
  held := none
  next := 0
  conflictOwed := none
  conflictFlag := false
  beaconDeadline := none
  beaconQueued := false
  fresh := true

/-- The lease clock after a cold or warm reset (R161). -/
def Clock.reset : Clock where
  running := false
  now := 0
  divider := 0
  advances := 0
  reached := []

/-- The straps of the model's reset state: every pin low, as the internal pull-downs leave an unconnected pin
(Table 11.6). DESIGN CHOICE, assumption 1. -/
def Straps.reset : Straps := ⟨0, 0, 0, 0, 0⟩

/-- Station control after a cold reset, with these straps (Table 11.3). -/
def Control.coldReset (straps : Straps) : Control where
  coldPin := false
  warmPin := false
  straps := straps
  state := .config
  pools := []
  lock := false
  scrubOwed := true
  counters := Vector.replicate 24 0
  ready := none
  startedOwed := none
  strapReads := 0

/-- The station right after the release of a first cold reset: every block in its cold-reset state, table memory never
written. -/
def Station.reset : Station where
  control := Control.coldReset Straps.reset
  port := Port.reset
  fetch := ⟨false, 0, none⟩
  lane := LaneUnit.reset
  chunker := Chunker.reset
  exchange := Exchange.reset
  index := IndexUnit.reset ⟨[], 0⟩
  bus := Bus.reset
  roster := Roster.reset
  clock := Clock.reset
  torn := 0

/-- The machine right after reset: no command waits. -/
def State.reset : State := ⟨Station.reset, []⟩

end Sys2Proof.Machine
end

