-- ==== Sys2Proof/Machine/Ops.lean ====
section
/-! DEFINITION. The named operations over the station's storage: sparse tables in canonical form, searches that go round
a numbered set, bit strings and the CRC-16, and the reads and updates of the station's records. Every meaning is written
over these. -/
namespace Sys2Proof.Machine

/-! ### Sparse tables (pool table, table memory) in canonical form -/

/-- The listed value at `k`, if any. -/
def cellsFind {α : Type} (k : Nat) : List (Nat × α) → Option α
  | [] => none
  | (j, v) :: rest => if j = k then some v else cellsFind k rest

/-- The value at `k`: the listed one, or what an unlisted address reads as. -/
def cellsRead {α : Type} (dflt : Nat → α) (k : Nat) (cells : List (Nat × α)) : α :=
  (cellsFind k cells).getD (dflt k)

/-- The list without an entry for `k`. -/
def cellsErase {α : Type} (k : Nat) (cells : List (Nat × α)) : List (Nat × α) :=
  cells.filter fun c => c.1 != k

/-- The list with the entry `(k, v)` at its place in the rising order, replacing one already there. -/
def cellsInsert {α : Type} (k : Nat) (v : α) : List (Nat × α) → List (Nat × α)
  | [] => [(k, v)]
  | (j, w) :: rest =>
    if j < k then (j, w) :: cellsInsert k v rest
    else if j = k then (k, v) :: rest
    else (k, v) :: (j, w) :: rest

/-- A write that keeps the canonical form: a value equal to what an unlisted address reads as removes the entry. -/
def cellsWrite {α : Type} [DecidableEq α] (dflt : Nat → α) (k : Nat) (v : α) (cells : List (Nat × α)) :
    List (Nat × α) :=
  if v = dflt k then cellsErase k cells else cellsInsert k v cells

/-- The canonical form: addresses strictly rising, no entry equal to what an unlisted address reads as. -/
abbrev cellsCanonical {α : Type} [DecidableEq α] (dflt : Nat → α) (cells : List (Nat × α)) : Prop :=
  cells.Pairwise (fun a b => a.1 < b.1) ∧ ∀ c ∈ cells, c.2 ≠ dflt c.1

/-! ### Round-robin searches -/

/-- The first number that has `p`, searching upwards from `start` and wrapping (R71, R83, R101, R125, R154). -/
def ringFind {n : Nat} [NeZero n] (start : Fin n) (p : Fin n → Bool) : Option (Fin n) :=
  ((List.finRange n).map fun k => start + k).find? p

/-- The lowest number that has `p`. -/
def lowestFind {n : Nat} (p : Fin n → Bool) : Option (Fin n) :=
  (List.finRange n).find? p

/-! ### Bit strings and the check code (R17, R136) -/

/-- The bits of a value, most significant first. -/
def bitsOf {w : Nat} (x : BitVec w) : List Bool := (List.range w).map fun i => x.getMsbD i

/-- The value of a bit string read most significant bit first. -/
def natOfBits (bits : List Bool) : Nat := bits.foldl (fun n b => 2 * n + b.toNat) 0

/-- The same as a bit vector of `w` bits. -/
def ofBits (w : Nat) (bits : List Bool) : BitVec w := BitVec.ofNat w (natOfBits bits)

/-- One bit into the CRC-16 register: generator x^16+x^12+x^5+1, most significant bit first, no reflection (R17). -/
def crcBit (register : BitVec 16) (bit : Bool) : BitVec 16 :=
  if register.msb != bit then (register <<< 1) ^^^ 0x1021 else register <<< 1

/-- The check code of a bit sequence: the register starts all ones, no final inversion (R17). -/
def crc16 (bits : List Bool) : BitVec 16 := bits.foldl crcBit 0xFFFF

/-! ### Fields of words (R181) -/

/-- A field placed at bit `lo` of a word. -/
def fieldAt {w : Nat} (lo : Nat) (x : BitVec w) : Word := x.setWidth 32 <<< lo

/-- The two words of a 48-bit value: low 32 bits, then high 16 bits in bits 15..0 (R181). -/
def words48 (x : BitVec 48) : List Word := [x.setWidth 32, (x.extractLsb' 32 16).setWidth 32]

/-- The four words of a fingerprint, bits 127..96 first (R181). -/
def words128 (x : Fingerprint) : List Word :=
  [x.extractLsb' 96 32, x.extractLsb' 64 32, x.extractLsb' 32 32, x.extractLsb' 0 32]

/-- A 48-bit value from its two words; bits 31..16 of the second are not read (R181). -/
def join48 (lo hi : Word) : BitVec 48 := hi.setWidth 16 ++ lo

/-- A 64-bit value from its two words, low then high (R181). -/
def join64 (lo hi : Word) : BitVec 64 := hi ++ lo

/-- A fingerprint from its four words, bits 127..96 first (R181). -/
def join128 (a b c d : Word) : Fingerprint := a ++ b ++ c ++ d

/-- The word whose byte `i` is all ones where bit `i` of `bytes` is set. -/
def byteMask (bytes : BitVec 4) : Word :=
  (if bytes.getLsbD 3 then 0xFF#8 else 0#8) ++ (if bytes.getLsbD 2 then 0xFF#8 else 0#8) ++
    (if bytes.getLsbD 1 then 0xFF#8 else 0#8) ++ (if bytes.getLsbD 0 then 0xFF#8 else 0#8)

/-- `old` with the bytes of `bytes` replaced by those of `new` (R167). -/
def mergeBytes (bytes : BitVec 4) (old new : Word) : Word :=
  (old &&& ~~~byteMask bytes) ||| (new &&& byteMask bytes)

/-! ### The lease clock (R163) -/

/-- Whether deadline `d` is reached at the counter value `now` (R163). -/
def reached (now d : Tick) : Bool := (now - d).toNat < 32768

/-! ### Tags (R64) -/

/-- The index of a tag, its low eight bits. -/
def tagIndex (tag : Tag) : EntryIndex := (tag.setWidth 8).toFin

/-- The round of a tag, its high four bits. -/
def tagRound (tag : Tag) : BitVec 4 := tag.extractLsb' 8 4

/-- The tag of an index and a round: round × 256 + index. -/
def mkTag (round : BitVec 4) (index : EntryIndex) : Tag := round ++ BitVec.ofNat 8 index.val

/-! ### Keys, owners, buckets (R8, R9) -/

/-- The bin of a fingerprint, bits 127..120 (R8). -/
def binOf (fp : Fingerprint) : BitVec 8 := fp.extractLsb' 120 8

/-- The owner of a fingerprint in a cluster of `size` stations: its bin modulo the size (R8). -/
def ownerOf (size : BitVec 4) (fp : Fingerprint) : StationNo := BitVec.ofNat 4 ((binOf fp).toNat % size.toNat)

/-- The bucket index of a key: fingerprint bits 119..101 XOR pool × 32,768 (R9). -/
def bucketIndex (key : Key) : Nat := (key.fp.extractLsb' 101 19 ^^^ (key.pool.setWidth 19 <<< 15)).toNat

/-! ### Statistics counters (R188) -/

/-- The word of a counter in Table 11.5. -/
def Counter.index : Counter → Fin 24
  | .framesSent => 0
  | .framesReceived => 1
  | .checkFailures => 2
  | .framesRefused => 3
  | .sendFailures => 4
  | .lateFrames => 5
  | .staleDrops => 6
  | .claimsCreated => 7
  | .promotions => 8
  | .leaseExpiries => 9
  | .knownVerdicts => 10
  | .writeVerdicts => 11
  | .unindexedWaitersFull => 12
  | .unindexedClaimsFull => 13
  | .unindexedBucketFull => 14
  | .unindexedPoolIsolated => 15
  | .unindexedOwnerAbsent => 16
  | .unindexedOwnerRestarted => 17
  | .unindexedNoAnswer => 18
  | .unindexedHoldExpired => 19
  | .unindexedNotIndexed => 20
  | .bucketsLost => 21
  | .conflicts => 22
  | .compensationsLost => 23

/-- The counter of chunks unindexed for a reason (R94). -/
def Reason.counter : Reason → Counter
  | .waitersFull => .unindexedWaitersFull
  | .claimsFull => .unindexedClaimsFull
  | .bucketFull => .unindexedBucketFull
  | .poolIsolated => .unindexedPoolIsolated
  | .ownerAbsent => .unindexedOwnerAbsent
  | .ownerRestarted => .unindexedOwnerRestarted
  | .noAnswer => .unindexedNoAnswer
  | .holdExpired => .unindexedHoldExpired
  | .notIndexed => .unindexedNotIndexed

/-- The reason a NOINDEX verdict gives a chunk (R75). -/
def NoindexReason.reason : NoindexReason → Reason
  | .waitersFull => .waitersFull
  | .claimsFull => .claimsFull
  | .bucketFull => .bucketFull
  | .poolIsolated => .poolIsolated

/-- The value of a counter. -/
def Station.counter (c : Counter) (s : Station) : Word := s.control.counters[c.index]

/-- A counter advanced by one, wrapping (R188). -/
def Station.bump (c : Counter) (s : Station) : Station :=
  { s with control.counters := s.control.counters.set c.index (s.control.counters[c.index] + 1) }

/-! ### Station control -/

/-- The station's own number (R182). -/
def Station.own (s : Station) : StationNo := s.control.straps.number

/-- Whether a reset pin is asserted (R183). -/
def Station.inReset (s : Station) : Bool := s.control.coldPin || s.control.warmPin

/-- Whether the station is RUNNING. -/
def Station.running (s : Station) : Bool := s.control.state == .running

/-- The average chunk size A (R96). -/
def Station.averageChunk (s : Station) : Nat := Config.averageChunk s.control.straps.averageChunk

/-- The pool that the pool table gives a branch (R3). -/
def Station.poolOf (branch : Branch) (s : Station) : Pool := cellsRead (fun _ => 0) branch.toNat s.control.pools

/-- The pool table with the branch's entry written (R4). -/
def Station.setPool (branch : Branch) (pool : Pool) (s : Station) : Station :=
  { s with control.pools := cellsWrite (fun _ => 0) branch.toNat pool s.control.pools }

/-! ### Lanes and slots -/

/-- A lane's record. -/
def Station.laneAt (l : LaneNo) (s : Station) : Lane := s.lane.lanes[l]

/-- The station with a lane's record changed by `f`. -/
def Station.mapLane (l : LaneNo) (f : Lane → Lane) (s : Station) : Station :=
  { s with lane.lanes := s.lane.lanes.set l (f s.lane.lanes[l]) }

/-- The lane with every slot of sequence number `seq` changed by `f` (the numbers of a window are distinct, R115). -/
def Lane.mapSlot (seq : Word) (f : Slot → Slot) (l : Lane) : Lane :=
  { l with window := l.window.map fun x => if x.seq = seq then f x else x }

/-- The slot of sequence number `seq`, if the window holds one. -/
def Lane.slot (seq : Word) (l : Lane) : Option Slot := l.window.find? fun x => x.seq == seq

/-- A slot move handed to the lane unit, for the slot an entry is bound to (R117). -/
def Station.moveSlot (binding : Option Binding) (f : Slot → Slot) (s : Station) : Station :=
  match binding with
  | some b => s.mapLane b.lane (Lane.mapSlot b.seq f)
  | none => s

/-- Slot move: state only. -/
def Slot.enter (state : SlotState) (x : Slot) : Slot := { x with state := state }

/-- Slot move into STORING, indexed or unindexed with a reason; STORE becomes owed (R117). -/
def Slot.toStoring (unindexed : Option Reason) (x : Slot) : Slot := { x with state := .storing unindexed true }

/-- Slot move into RESOLVED with a locator (R117). -/
def Slot.resolve (kind : Kind) (locator : Locator) (x : Slot) : Slot :=
  { x with state := .resolved kind, locator := some locator }

/-- The slot an entry is bound to passes to STORING, unindexed, and the counter of the reason advances (R94). -/
def Station.storeUnindexed (reason : Reason) (binding : Option Binding) (s : Station) : Station :=
  (s.moveSlot binding (Slot.toStoring (some reason))).bump reason.counter

/-! ### Outstanding entries -/

/-- An entry of the outstanding list. -/
def Station.entry (i : EntryIndex) (s : Station) : Entry := s.exchange.entries[i]

/-- The station with an entry replaced. -/
def Station.setEntry (i : EntryIndex) (e : Entry) (s : Station) : Station :=
  { s with exchange.entries := s.exchange.entries.set i e }

/-- Whether an entry is live (not FREE) (R66). -/
def Entry.live (e : Entry) : Bool := e.state != .free

/-- The entry bound to a slot, if any (R63: at most one). -/
def Station.boundEntry (b : Binding) (s : Station) : Option EntryIndex :=
  lowestFind fun i => (s.entry i).binding == some b

/-! ### Peers (R153) -/

/-- The station number of a position of the peer table. -/
def peerNo (p : Fin 15) : StationNo := BitVec.ofNat 4 p.val

/-- The record of a station number; a number without a record reads as ABSENT. -/
def Station.peer (p : StationNo) (s : Station) : Peer := s.roster.peers[p.toNat]?.getD {}

/-- The station with a peer record replaced; a number without a record changes nothing. -/
def Station.setPeer (p : StationNo) (r : Peer) (s : Station) : Station :=
  { s with roster.peers := s.roster.peers.setIfInBounds p.toNat r }

/-- Whether the owner check reads a station as SERVING: the own number while RUNNING, a peer by its record (R68, R153). -/
def Station.serving (p : StationNo) (s : Station) : Bool :=
  if p = s.own then s.running else (s.peer p).state == .serving

/-! ### Claims (R34) -/

/-- A position of the claim table set. -/
def Station.setClaim (p : ClaimPos) (c : Option Claim) (s : Station) : Station :=
  { s with index.claims := s.index.claims.set p c }

/-! ### Running an effect on the station -/

/-- A command's outcome from its effect on the station: always a next state, the queue of commands as it was. -/
def runStation (f : Station → Station) (s : State) : Host.Outcome State Fault Refusal :=
  .next { s with station := f s.station }

end Sys2Proof.Machine
end

