-- ==== Sys2Proof/Machine/Flags.lean ====
section
/-! DEFINITION. The flags and views the station computes from its state: the request line, the status word, and the
readable words of the host window (sections 10.1 and 10.3). -/
namespace Sys2Proof.Machine

/-- The report FIFO's level (R175). -/
def Port.level (p : Port) : Nat := p.reports.length

/-- The request line: asserted while the level is at or above the request threshold (R177). -/
def Port.requestLine (p : Port) : Bool := p.threshold ≤ p.level

/-- The code of the station state in the status word (Table 10.5). -/
def StationState.code : StationState → BitVec 2
  | .config => 0
  | .scrub => 1
  | .running => 2

/-- The status word (Table 10.5). -/
def Station.statusWord (s : Station) : Word :=
  fieldAt 0 (BitVec.ofNat 6 (Config.commandFifoMax - s.port.fifo.length)) |||
    fieldAt 8 (BitVec.ofNat 11 s.port.level) ||| fieldAt 20 s.control.state.code |||
    fieldAt 24 (BitVec.ofBool s.port.overrun) ||| fieldAt 25 (BitVec.ofBool s.port.requestLine)

/-- The oldest word of the report FIFO, or 0 when it is empty (R175). -/
def Port.oldest (p : Port) : Word := p.reports.headD 0

/-- The word that a read of the window word at byte offset `offset` (a multiple of 4) returns (Table 10.1): every word
that the table does not give returns 0, and so does every word while a reset pin is asserted (R167). -/
def Station.windowWord (offset : Nat) (s : Station) : Word :=
  if s.inReset then 0
  else if offset / 4 < 16 then (s.port.staging[offset / 4]?).getD 0
  else if offset = 0x80 then s.port.oldest
  else if offset = 0x84 then s.statusWord
  else 0

/-- The IDXBUS driver: on while a frame of the station is on the line (R134, R151). -/
def Station.driverOn (s : Station) : Bool := s.bus.tx.any fun f => f.mark != .waiting

end Sys2Proof.Machine
end

