-- ==== Sys2Proof/Machine/Frames.lean ====
section
/-! DEFINITION. Frames of the index bus: classes, type codes, bodies, their cells on the line, the receive checks on a
frame as read, and arbitration (sections 7.2 and 7.4). -/
namespace Sys2Proof.Machine

/-- The type code of a frame (Table 7.2). -/
def FrameBody.typeCode : FrameBody → BitVec 4
  | .answer (.verdict _) => 0
  | .answer (.notice _) => 1
  | .answer (.commitReply _) => 2
  | .answer (.releaseReply _) => 3
  | .commit _ _ => 4
  | .drop _ => 5
  | .release _ _ => 6
  | .ask _ => 7
  | .beacon _ _ => 8

/-- The class of a frame (Table 7.2). -/
def FrameBody.cls : FrameBody → BitVec 2
  | .answer _ => 0
  | .commit _ _ => 1
  | .drop _ => 1
  | .release _ _ => 1
  | .ask _ => 2
  | .beacon _ _ => 3

/-- The code of a NOINDEX reason in a VERDICT (Table 7.3). -/
def NoindexReason.code : NoindexReason → BitVec 4
  | .waitersFull => 1
  | .claimsFull => 2
  | .bucketFull => 3
  | .poolIsolated => 4

/-- The code of a RELEASE-REPLY outcome (Table 7.3). -/
def ReleaseOutcome.code : ReleaseOutcome → BitVec 2
  | .pinned => 0
  | .counted => 1
  | .retired => 2
  | .notFound => 3

/-- The body cells of an answer (Tables 7.2 and 7.3). -/
def AnswerBody.cells : AnswerBody → List Bool
  | .verdict (.known l) => bitsOf 0#2 ++ bitsOf 0#4 ++ bitsOf l
  | .verdict .write => bitsOf 1#2 ++ bitsOf 0#4
  | .verdict .hold => bitsOf 2#2 ++ bitsOf 0#4
  | .verdict (.noindex r) => bitsOf 3#2 ++ bitsOf r.code
  | .notice (.known l) => bitsOf 0#2 ++ bitsOf l
  | .notice .write => bitsOf 1#2
  | .commitReply .indexed => bitsOf 0#2
  | .commitReply (.superseded l) => bitsOf 1#2 ++ bitsOf l
  | .commitReply .notIndexed => bitsOf 2#2
  | .releaseReply o => bitsOf o.code

/-- The body cells of a frame (Table 7.2). -/
def FrameBody.cells : FrameBody → List Bool
  | .answer a => a.cells
  | .commit k l => bitsOf k.pool ++ bitsOf k.fp ++ bitsOf l
  | .drop k => bitsOf k.pool ++ bitsOf k.fp
  | .release k l => bitsOf k.pool ++ bitsOf k.fp ++ bitsOf l
  | .ask k => bitsOf k.pool ++ bitsOf k.fp
  | .beacon fresh size => bitsOf (BitVec.ofBool fresh) ++ bitsOf size

/-- The precedence value of a frame: class × 16 + sender (R136). -/
def Frame.precedence (f : Frame) : BitVec 6 := f.body.cls ++ f.sender

/-- The cells that the check field covers: type, destination, tag and body (R136). -/
def Frame.covered (f : Frame) : List Bool :=
  bitsOf f.body.typeCode ++ bitsOf f.dest ++ bitsOf f.tag ++ f.body.cells

/-- The cells of a frame from its class field to its check field (Table 7.1); true is a 1, a recessive second half. -/
def Frame.cells (f : Frame) : List Bool :=
  bitsOf f.precedence ++ f.covered ++ bitsOf (crc16 f.covered)

/-- The body length of a frame of a type, from the first two cells of its body (Table 7.2); none for a code that is no
type. -/
def bodyLength (typeCode : Nat) (first : Nat) : Option Nat :=
  match typeCode with
  | 0 => some (if first = 0 then 54 else 6)
  | 1 => some (if first = 0 then 50 else 2)
  | 2 => some (if first = 1 then 50 else 2)
  | 3 => some 2
  | 4 => some 180
  | 5 => some 132
  | 6 => some 180
  | 7 => some 132
  | 8 => some 5
  | _ => none

/-- The cells of a field: `len` cells from cell `start`. -/
def cellField (cells : List Bool) (start len : Nat) : List Bool := (cells.drop start).take len

/-- A key from body cells: pool 4, fingerprint 128. -/
def cellKey (body : List Bool) : Key := ⟨ofBits 4 (cellField body 0 4), ofBits 128 (cellField body 4 128)⟩

/-- A locator from body cells; R137 makes a frame with locator 0 malformed. -/
def cellLocator (body : List Bool) (start : Nat) : Option Locator :=
  let l := ofBits 48 (cellField body start 48)
  if l = 0 then none else some l

/-- The NOINDEX reason of a code 1 to 4 (Table 7.3). -/
def noindexOfCode : Nat → Option NoindexReason
  | 1 => some .waitersFull
  | 2 => some .claimsFull
  | 3 => some .bucketFull
  | 4 => some .poolIsolated
  | _ => none

/-- The body of a frame of a type, where every code is one of Table 7.3, a locator is nonzero and a reason fits its
verdict (R137). -/
def decodeBody (typeCode : Nat) (body : List Bool) : Option FrameBody :=
  let code := natOfBits (cellField body 0 2)
  match typeCode with
  | 0 =>
    let reason := natOfBits (cellField body 2 4)
    match code with
    | 0 => if reason = 0 then (cellLocator body 6).map fun l => .answer (.verdict (.known l)) else none
    | 1 => if reason = 0 then some (.answer (.verdict .write)) else none
    | 2 => if reason = 0 then some (.answer (.verdict .hold)) else none
    | _ => (noindexOfCode reason).map fun r => .answer (.verdict (.noindex r))
  | 1 =>
    match code with
    | 0 => (cellLocator body 2).map fun l => .answer (.notice (.known l))
    | 1 => some (.answer (.notice .write))
    | _ => none
  | 2 =>
    match code with
    | 0 => some (.answer (.commitReply .indexed))
    | 1 => (cellLocator body 2).map fun l => .answer (.commitReply (.superseded l))
    | 2 => some (.answer (.commitReply .notIndexed))
    | _ => none
  | 3 =>
    match code with
    | 0 => some (.answer (.releaseReply .pinned))
    | 1 => some (.answer (.releaseReply .counted))
    | 2 => some (.answer (.releaseReply .retired))
    | _ => some (.answer (.releaseReply .notFound))
  | 4 => (cellLocator body 132).map fun l => .commit (cellKey body) l
  | 5 => some (.drop (cellKey body))
  | 6 => (cellLocator body 132).map fun l => .release (cellKey body) l
  | 7 => some (.ask (cellKey body))
  | 8 =>
    let size := ofBits 4 (cellField body 1 4)
    if size = 0 then none else some (.beacon (body.headD false) size)
  | _ => none

/-- Checks 1 and 2 of R146 on the cells of a frame from class to check: a frame whose check field agrees and that is well
formed by R137, or none (discarded and counted as a check failure). -/
def parseFrame (cells : List Bool) : Option Frame :=
  let typeCode := natOfBits (cellField cells 6 4)
  match bodyLength typeCode (natOfBits (cellField cells 26 2)) with
  | none => none
  | some len =>
    let dest := ofBits 4 (cellField cells 10 4)
    if cells.length ≠ 42 + len then none
    else if crc16 (cellField cells 6 (20 + len)) ≠ ofBits 16 (cellField cells (26 + len) 16) then none
    else
      match decodeBody typeCode (cellField cells 26 len) with
      | none => none
      | some body =>
        if ofBits 2 (cellField cells 0 2) ≠ body.cls then none
        else if (dest == 15) != (typeCode == 8) then none
        else some ⟨ofBits 4 (cellField cells 2 4), dest, ofBits 12 (cellField cells 14 12), body⟩

/-- Arbitration over the precedence cells `cell … 5` (R140): each contender sends its bit, the line is dominant where any
sends 0, and a contender that sends 1 and reads 0 drops out. The result is the cell at which `mine` loses, or none where
it wins. -/
def arbitrate (mine : BitVec 6) : List Nat → List (BitVec 6) → Option Nat
  | [], _ => none
  | cell :: rest, rivals =>
    let line := mine.getMsbD cell && rivals.all (·.getMsbD cell)
    if mine.getMsbD cell && !line then some cell
    else arbitrate mine rest (rivals.filter fun r => r.getMsbD cell == line)

/-- The first cell whose second half a sender left recessive (sent as 1) and reads dominant (R141). Cells past the end of
the levels read are taken to read as sent. -/
def mismatch : List Bool → List Bool → Option Nat
  | true :: _, false :: _ => some 0
  | _ :: sent, _ :: levels => (mismatch sent levels).map (· + 1)
  | _, _ => none

/-- The frame that carries an answer to another station (R42). -/
def answerFrame (own : StationNo) (a : Answer) : Frame := ⟨own, a.dest.station, a.dest.tag, .answer a.body⟩

/-- A frame joins the transmit queue behind the frames of its own class and lower classes (R138). -/
def txInsert (f : TxFrame) : List TxFrame → List TxFrame
  | [] => [f]
  | g :: rest => if g.frame.body.cls ≤ f.frame.body.cls then g :: txInsert f rest else f :: g :: rest

/-- The transmit queue after a purge of `p` (R149, R150): every frame addressed to `p` leaves, except one on the line,
which is marked. -/
def txPurge (p : StationNo) (q : List TxFrame) : List TxFrame :=
  q.filterMap fun f =>
    if f.frame.dest = p then
      if f.mark = .waiting then none else some { f with mark := .onLinePurged }
    else some f

end Sys2Proof.Machine
end

