-- ==== Sys2Proof/Machine/Entries.lean ====
section
/-! DEFINITION. The shared operations of the exchange unit on outstanding entries: freeing, closing, orphans,
compensations, answers, send outcomes, deadlines, and the cleanup for a lost or restarted owner (chapter 4). -/
namespace Sys2Proof.Machine

/-! ### Changes of one entry -/

/-- A freed entry: FREE with its round (R63, R64). -/
def Entry.freed (e : Entry) : Entry := { round := e.round }

/-- A rule frees an entry. One that owes a report keeps it: its request is withdrawn, its closing marker is set, and it is
freed when the report is made ready (R83). -/
def Entry.release (e : Entry) : Entry :=
  if e.owed.isSome then { e with request := none, deadline := none, binding := none, closing := true } else e.freed

/-- An entry comes to owe its last report: it is freed when the report is made ready (R81, R82, R84, R87, R88, R91). -/
def Entry.closeOwing (r : OwedReport) (e : Entry) : Entry :=
  { e with owed := some r, request := none, deadline := none, binding := none, closing := true }

/-- An entry sends DROP and is freed when the DROP is handed on (R86, R89). -/
def Entry.closeDropping (e : Entry) : Entry :=
  { e with request := some (.drop, .pending), deadline := none, binding := none, closing := true }

/-- An entry becomes an ORPHAN (R84). A request already handed on stays where it is and its outcome is ignored, so the
entry holds no request. -/
def Entry.toOrphan (origin : Origin) (now : Tick) (e : Entry) : Entry :=
  { e with
    state := .orphan origin
    binding := none
    request := none
    attempts := 0
    ackedOnce := false
    deadline := some (.orphanHold, now + Config.orphanTicks) }

/-- An entry becomes a compensation RELEASE under the locator it returns (R85). -/
def Entry.toCompensation (locator : Locator) (e : Entry) : Entry :=
  { e with
    kind := .compensation
    state := .releasing
    locator := some locator
    binding := none
    request := some (.release, .pending)
    attempts := 1
    ackedOnce := false
    deadline := none }

/-- Whether an entry's request was never handed on: still PENDING at attempt 1 (R84). -/
def Entry.neverHandedOn (e : Entry) : Bool :=
  match e.request with
  | some (_, .pending) => e.attempts == 1
  | _ => false

/-- An entry leaves its exchange for a state that sends nothing: any request and deadline end with it (R67, R72). -/
def Entry.settle (state : EntryState) (e : Entry) : Entry :=
  { e with state := state, request := none, attempts := 0, ackedOnce := false, deadline := none }

/-- What the abort of its lane makes of an entry bound to one of the lane's slots (Table 4.7, R84, R89). -/
def Entry.abortBound (now : Tick) (e : Entry) : Entry :=
  match e.state with
  | .asking => if e.neverHandedOn then e.freed else e.toOrphan .ask now
  | .holding => e.toOrphan .hold now
  | .storing => e.closeDropping
  | .committing =>
    if e.neverHandedOn then e.closeOwing (.reclaim (e.locator.getD 0)) else e.toOrphan .abortCommit now
  | .resolved => e.toCompensation (e.locator.getD 0)
  | .free | .releasing | .orphan _ => e

/-! ### Exhaustion and giving up -/

/-- An exchange is exhausted: an ASK resolves its slot unindexed NO_ANSWER (R76), a COMMIT resolves it DOUBT (R79); the
entry becomes an orphan. -/
def Station.exhaust (i : EntryIndex) (s : Station) : Station :=
  let e := s.entry i
  match e.state with
  | .asking =>
    (s.storeUnindexed .noAnswer e.binding).setEntry i (e.toOrphan .ask s.clock.now)
  | .committing =>
    (s.moveSlot e.binding (Slot.resolve .doubt (e.locator.getD 0))).setEntry i (e.toOrphan .doubtCommit s.clock.now)
  | _ => s

/-- One exchange attempt of an ASK or COMMIT has failed (R72, R73): below 3 attempts the count advances and the request
is PENDING again; at 3 the exchange is exhausted. -/
def Station.attemptFailed (i : EntryIndex) (s : Station) : Station :=
  let e := s.entry i
  if e.attempts < Config.exchangeAttempts then
    s.setEntry i
      { e with
        attempts := e.attempts + 1
        request := e.request.map fun r => (r.1, .pending)
        deadline := none }
  else s.exhaust i

/-- A RELEASE is given up (R81, R82): a host RELEASE owes RELEASED with the outcome, a compensation is counted lost and
freed. -/
def Station.giveUp (outcome : ReleasedOutcome) (i : EntryIndex) (s : Station) : Station :=
  let e := s.entry i
  match e.kind with
  | .hostRelease => s.setEntry i (e.closeOwing (.released outcome))
  | .compensation => (s.bump .compensationsLost).setEntry i e.release
  | .askExchange => s

/-! ### Answers (R67, R75 to R82, R86, R87) -/

/-- An answer read as a verdict: a NOTICE counts as the VERDICT of the same content (R75). -/
def AnswerBody.asVerdict : AnswerBody → Option Verdict
  | .verdict v => some v
  | .notice (.known l) => some (.known l)
  | .notice .write => some .write
  | .commitReply _ | .releaseReply _ => none

/-- KNOWN with a locator: the entry records it and is RESOLVED, the slot is resolved DUP (R75). -/
def Station.takeKnown (i : EntryIndex) (l : Locator) (s : Station) : Station :=
  let e := s.entry i
  (s.moveSlot e.binding (Slot.resolve .dup l)).setEntry i { (e.settle .resolved) with locator := some l }

/-- WRITE: entry and slot pass to STORING, indexed (R75). -/
def Station.takeWrite (i : EntryIndex) (s : Station) : Station :=
  let e := s.entry i
  (s.moveSlot e.binding (Slot.toStoring none)).setEntry i (e.settle .storing)

/-- The answers an ASKING entry takes (R75). -/
def Station.answerAsking (i : EntryIndex) (a : AnswerBody) (s : Station) : Option Station :=
  let e := s.entry i
  match a.asVerdict with
  | some (.known l) => some (s.takeKnown i l)
  | some .write => some (s.takeWrite i)
  | some .hold =>
    some ((s.moveSlot e.binding (Slot.enter .holding)).setEntry i
      { (e.settle .holding) with deadline := some (.hold, s.clock.now + Config.holdTicks) })
  | some (.noindex r) => some ((s.storeUnindexed r.reason e.binding).setEntry i e.release)
  | none => none

/-- The answers a HOLDING entry takes (R77). -/
def Station.answerHolding (i : EntryIndex) (a : AnswerBody) (s : Station) : Option Station :=
  match a.asVerdict with
  | some (.known l) => some (s.takeKnown i l)
  | some .write => some (s.takeWrite i)
  | _ => none

/-- The answers a COMMITTING entry takes (R79). -/
def Station.answerCommitting (i : EntryIndex) (a : AnswerBody) (s : Station) : Option Station :=
  let e := s.entry i
  let own := e.locator.getD 0
  match a with
  | .commitReply .indexed => some ((s.moveSlot e.binding (Slot.resolve .new own)).setEntry i (e.settle .resolved))
  | .commitReply (.superseded m) =>
    some ((s.moveSlot e.binding (Slot.resolve .dup m)).setEntry i
      { (e.settle .resolved) with owed := some (.reclaim own), locator := some m })
  | .commitReply .notIndexed =>
    some (((s.moveSlot e.binding (Slot.resolve (.unindexed .notIndexed) own)).bump .unindexedNotIndexed).setEntry i
      e.release)
  | _ => none

/-- The answers a RELEASING entry takes (R81, R82). -/
def Station.answerReleasing (i : EntryIndex) (a : AnswerBody) (s : Station) : Option Station :=
  let e := s.entry i
  match a with
  | .releaseReply o =>
    match e.kind with
    | .hostRelease => some (s.setEntry i (e.closeOwing (.released (.reply o))))
    | .compensation =>
      match o with
      | .retired => some (s.setEntry i (e.closeOwing (.reclaim (e.locator.getD 0))))
      | .counted | .pinned | .notFound => some (s.setEntry i e.release)
    | .askExchange => none
  | _ => none

/-- The answers an orphan of origin ASK or HOLD takes (Table 4.5, R86). -/
def Station.answerAskOrphan (i : EntryIndex) (held : Bool) (a : AnswerBody) (s : Station) : Option Station :=
  let e := s.entry i
  match a.asVerdict with
  | some (.known l) => some (s.setEntry i (e.toCompensation l))
  | some .write => some (s.setEntry i e.closeDropping)
  | some .hold => if held then none else some (s.setEntry i (e.toOrphan .hold s.clock.now))
  | some (.noindex _) => if held then none else some (s.setEntry i e.release)
  | none => none

/-- The answers an orphan of a commit takes (Table 4.6, R87). -/
def Station.answerCommitOrphan (i : EntryIndex) (aborted : Bool) (a : AnswerBody) (s : Station) : Option Station :=
  let e := s.entry i
  let own := e.locator.getD 0
  match a with
  | .commitReply .indexed => some (s.setEntry i (if aborted then e.toCompensation own else e.release))
  | .commitReply (.superseded m) =>
    some (s.setEntry i
      (if aborted then { (e.toCompensation m) with owed := some (.reclaim own) } else e.toCompensation m))
  | .commitReply .notIndexed => some (s.setEntry i (if aborted then e.closeOwing (.reclaim own) else e.release))
  | _ => none

/-- The answers that the state and kind of an entry take; none where the answer is not among them (R67). -/
def Station.answerEntry (i : EntryIndex) (a : AnswerBody) (s : Station) : Option Station :=
  match (s.entry i).state with
  | .asking => s.answerAsking i a
  | .holding => s.answerHolding i a
  | .committing => s.answerCommitting i a
  | .releasing => s.answerReleasing i a
  | .orphan .ask => s.answerAskOrphan i false a
  | .orphan .hold => s.answerAskOrphan i true a
  | .orphan .doubtCommit => s.answerCommitOrphan i false a
  | .orphan .abortCommit => s.answerCommitOrphan i true a
  | .free | .storing | .resolved => none

/-- Whether the entry of a tag can act on an answer: live, not closing, and of the tag's round (R67). -/
def Entry.matchesTag (tag : Tag) (e : Entry) : Bool := e.live && !e.closing && e.round == tagRound tag

/-- The exchange unit takes an answer; one that no rule takes is dropped and counted as a late frame (R67). -/
def Station.takeAnswer (tag : Tag) (a : AnswerBody) (s : Station) : Station :=
  if (s.entry (tagIndex tag)).matchesTag tag then
    (s.answerEntry (tagIndex tag) a).getD (s.bump .lateFrames)
  else s.bump .lateFrames

/-! ### Send outcomes (R72) -/

/-- The request kind a frame carries, if it is a request. -/
def FrameBody.requestKind : FrameBody → Option RequestKind
  | .ask _ => some .ask
  | .commit _ _ => some .commit
  | .drop _ => some .drop
  | .release _ _ => some .release
  | .answer _ | .beacon _ _ => none

/-- Whether an acknowledged outcome arms the answer deadline: ASK in ASKING, COMMIT in COMMITTING, RELEASE in RELEASING
(R72). -/
def Entry.awaits (kind : RequestKind) (e : Entry) : Bool :=
  match kind, e.state with
  | .ask, .asking => true
  | .commit, .committing => true
  | .release, .releasing => true
  | _, _ => false

/-- An acknowledged outcome of an entry's SENT request (R72). -/
def Entry.acknowledged (kind : RequestKind) (now : Tick) (e : Entry) : Entry :=
  { e with
    request := some (kind, .acked)
    ackedOnce := true
    deadline := if e.awaits kind then some (.answer, now + Config.answerTicks) else e.deadline }

/-- A failed outcome of an entry's SENT request (R72): one failed attempt of an ASK or COMMIT, the give-up of a
RELEASE. -/
def Station.sendFailed (kind : RequestKind) (i : EntryIndex) (s : Station) : Station :=
  match kind with
  | .ask | .commit => s.attemptFailed i
  | .release => s.giveUp .undelivered i
  | .drop => s

/-- The exchange unit takes a send outcome, where the entry of the tag's index is live, of its round, and its request is
SENT with the frame's type; otherwise the outcome is ignored (R72). -/
def Station.takeOutcome (kind : RequestKind) (tag : Tag) (acknowledged : Bool) (s : Station) : Station :=
  let i := tagIndex tag
  let e := s.entry i
  if e.live && e.round == tagRound tag && e.request == some (kind, .sent) then
    if acknowledged then s.setEntry i (e.acknowledged kind s.clock.now) else s.sendFailed kind i
  else s

/-! ### Deadlines (R73, R77, R88) -/

/-- Whether an entry holds a reached deadline of a sort. -/
def Entry.deadlineReached (sort : DeadlineSort) (now : Tick) (e : Entry) : Bool :=
  match e.deadline with
  | some (x, d) => x == sort && reached now d
  | none => false

/-- An answer deadline is reached (R73): the deadline is cleared; an ASK or COMMIT has one failed attempt more, a RELEASE
is given up as UNCERTAIN. -/
def Station.answerExpired (i : EntryIndex) (s : Station) : Station :=
  let e := { s.entry i with deadline := none }
  match e.state with
  | .asking | .committing => (s.setEntry i e).attemptFailed i
  | .releasing => (s.setEntry i e).giveUp .uncertain i
  | _ => s.setEntry i e

/-- A hold deadline is reached (R77): the slot is stored unindexed HOLD_EXPIRED, the entry becomes an orphan of origin
HOLD. -/
def Station.holdExpired (i : EntryIndex) (s : Station) : Station :=
  let e := s.entry i
  match e.state with
  | .holding => (s.storeUnindexed .holdExpired e.binding).setEntry i (e.toOrphan .hold s.clock.now)
  | _ => s.setEntry i { e with deadline := none }

/-- An orphan hold deadline is reached (R88): origin ABORT-COMMIT owes DOUBT, any other origin is freed. -/
def Station.orphanExpired (i : EntryIndex) (s : Station) : Station :=
  let e := s.entry i
  match e.state with
  | .orphan .abortCommit => s.setEntry i (e.closeOwing (.doubt (e.locator.getD 0)))
  | .orphan _ => s.setEntry i e.release
  | _ => s.setEntry i { e with deadline := none }

/-- The deadline of an entry, acted on where it is of the sort and reached (R164). -/
def Station.expireEntry (sort : DeadlineSort) (i : EntryIndex) (s : Station) : Station :=
  if (s.entry i).deadlineReached sort s.clock.now then
    match sort with
    | .answer => s.answerExpired i
    | .hold => s.holdExpired i
    | .orphanHold => s.orphanExpired i
  else s

/-! ### Loss and restart of an owner (R91, R92) -/

/-- The Closing row of Tables 4.8 and 4.9: a pending DROP is withdrawn; the entry is freed, or freed when its owed report
is made ready. -/
def Station.cleanClosing (i : EntryIndex) (s : Station) : Station := s.setEntry i (s.entry i).release

/-- An entry toward a lost owner (Table 4.8). -/
def Station.cleanLost (i : EntryIndex) (s : Station) : Station :=
  let e := s.entry i
  if e.closing then s.cleanClosing i
  else
    match e.state with
    | .asking | .holding => (s.storeUnindexed .ownerAbsent e.binding).setEntry i e.release
    | .committing => (s.moveSlot e.binding (Slot.resolve .doubt (e.locator.getD 0))).setEntry i e.release
    | .releasing => s.giveUp (if e.ackedOnce then .uncertain else .undelivered) i
    | .orphan .abortCommit => s.setEntry i (e.closeOwing (.doubt (e.locator.getD 0)))
    | .orphan _ => s.setEntry i e.release
    | .free | .storing | .resolved => s

/-- An entry toward a restarted owner (Table 4.9). -/
def Station.cleanRestarted (i : EntryIndex) (s : Station) : Station :=
  let e := s.entry i
  if e.closing then s.cleanClosing i
  else
    match e.state with
    | .asking | .holding => (s.storeUnindexed .ownerRestarted e.binding).setEntry i e.release
    | .committing | .releasing =>
      match e.request with
      | some (kind, .sent) => s.sendFailed kind i
      | _ => s
    | .orphan .abortCommit => s.setEntry i (e.closeOwing (.doubt (e.locator.getD 0)))
    | .orphan _ => s.setEntry i e.release
    | .free | .storing | .resolved => s

/-- One entry of a cleanup order toward owner `p`: only live entries of that owner are acted on. -/
def Station.cleanEntry (restarted : Bool) (p : StationNo) (s : Station) (i : EntryIndex) : Station :=
  if (s.entry i).live && (s.entry i).owner == p then
    if restarted then s.cleanRestarted i else s.cleanLost i
  else s

/-- The exchange unit's cleanup toward a lost (R91) or restarted (R92) owner, over all entries. -/
def Station.cleanExchange (restarted : Bool) (p : StationNo) (s : Station) : Station :=
  (List.finRange 256).foldl (Station.cleanEntry restarted p) s

/-! ### Lookup (R68) and requests (R71) -/

/-- The exchange unit's checks on a digested slot (R68): pool 15, presence of the owner, tag wait queue. -/
def Station.lookupCheck (lane : LaneNo) (seq : Word) (key : Key) (s : Station) : Station :=
  let owner := ownerOf s.control.straps.clusterSize key.fp
  if key.pool = 15 then s.storeUnindexed .poolIsolated (some ⟨lane, seq⟩)
  else if s.serving owner then
    let s' := s.moveSlot (some ⟨lane, seq⟩) (Slot.enter .lookup)
    { s' with exchange.waitQueue := s'.exchange.waitQueue ++ [.lookup lane seq key owner] }
  else s.storeUnindexed .ownerAbsent (some ⟨lane, seq⟩)

/-- Whether an entry's PENDING request belongs to a path and may be offered: an entry that owes a report offers none
(R71). -/
def Station.offers (path : HandOnPath) (s : Station) (i : EntryIndex) : Bool :=
  let e := s.entry i
  let pending := match e.request with
    | some (_, .pending) => true
    | _ => false
  e.live && pending && e.owed.isNone && (e.owner == s.own) == (path == .self)

/-- Whether a recorded offer still stands: its entry still offers the same request of the same conversation (R71). -/
def Station.offerStands (path : HandOnPath) (o : Offer) (s : Station) : Bool :=
  s.offers path o.index && (s.entry o.index).round == o.round && (s.entry o.index).request == some (o.kind, .pending)

/-- The offer a path has recorded. -/
def Exchange.offer (path : HandOnPath) (x : Exchange) : Option Offer :=
  match path with
  | .self => x.offerSelf
  | .bus => x.offerBus

/-- The entry whose request a path offers: the recorded offer while it stands, else the next in turn (R71). -/
def Station.offered (path : HandOnPath) (s : Station) : Option EntryIndex :=
  let start := match path with
    | .self => s.exchange.nextSelf
    | .bus => s.exchange.nextBus
  match s.exchange.offer path with
  | some o => if s.offerStands path o then some o.index else ringFind start (s.offers path)
  | none => ringFind start (s.offers path)

/-- The offer of entry `i` recorded: it waits for room (R71). -/
def Station.recordOffer (path : HandOnPath) (i : EntryIndex) (s : Station) : Station :=
  let e := s.entry i
  let o := e.request.map fun r => Offer.mk i e.round r.1
  match path with
  | .self => { s with exchange.offerSelf := o }
  | .bus => { s with exchange.offerBus := o }

/-- The work item of an entry's request, for delivery inside the station (R71, Table 3.2). -/
def Station.requestItem (i : EntryIndex) (kind : RequestKind) (s : Station) : WorkItem :=
  let e := s.entry i
  let sender : Pair := ⟨s.own, mkTag e.round i⟩
  match kind with
  | .ask => .ask sender e.key
  | .commit => .commit sender e.key (e.locator.getD 0)
  | .drop => .drop sender e.key
  | .release => .release sender e.key (e.locator.getD 0)

/-- The frame of an entry's request (R71). -/
def Station.requestFrame (i : EntryIndex) (kind : RequestKind) (s : Station) : Frame :=
  let e := s.entry i
  ⟨s.own, e.owner, mkTag e.round i,
    match kind with
    | .ask => .ask e.key
    | .commit => .commit e.key (e.locator.getD 0)
    | .drop => .drop e.key
    | .release => .release e.key (e.locator.getD 0)⟩

/-- An entry whose request has been handed on: the phase changes, and a closing entry whose request is a DROP is freed
(R71). -/
def Entry.handedOn (kind : RequestKind) (phase : Phase) (e : Entry) : Entry :=
  if e.closing && kind == .drop && e.owed.isNone then e.freed else { e with request := some (kind, phase) }

end Sys2Proof.Machine
end

