-- ==== Sys2Proof/Machine/Queues.lean ====
section
/-! DEFINITION. Who joins the two shared queues and when: the transmit queue with its admission turn (R138), the index work
queue with its waiting sources (R39), and the roster's beacon and PEER items. -/
namespace Sys2Proof.Machine

/-! ### The transmit queue (R138) -/

/-- Whether the transmit queue has a place. -/
def Station.txRoom (s : Station) : Bool := s.bus.tx.length < Config.transmitMax

/-- A frame given to the transmit queue with attempt count 0 (R138). -/
def Station.txPush (f : Frame) (producer : TxProducer) (s : Station) : Station :=
  { s with bus.tx := txInsert ⟨f, producer, 0, .waiting⟩ s.bus.tx }

/-- Whether a hand-on path of the exchange unit waits with a request it has offered (R71). -/
def Station.pathWaits (path : HandOnPath) (s : Station) : Bool :=
  match s.exchange.offer path with
  | some o => s.offerStands path o
  | none => false

/-- Whether the index unit may take a free place now: while the exchange unit waits too, the place goes round-robin to
the one not admitted last; while only the exchange unit waits, the place is its (R138). -/
def Station.indexTurn (s : Station) : Bool :=
  !s.pathWaits .bus || (s.bus.indexWaits && s.bus.txLast != .index)

/-- The same for the exchange unit. -/
def Station.exchangeTurn (s : Station) : Bool :=
  !s.bus.indexWaits || (s.pathWaits .bus && s.bus.txLast != .exchange)

/-! ### The index work queue (R38, R39) -/

/-- Whether the index work queue has a place. -/
def Station.workRoom (s : Station) : Bool := s.index.queue.length < Config.workQueueMax

/-- An item joins the tail of the index work queue (R38). -/
def Station.workPush (item : WorkItem) (s : Station) : Station :=
  { s with index.queue := s.index.queue ++ [item] }

/-- Whether a source waits for the index work queue (R39). -/
def Station.sourceWaits (s : Station) : Source → Bool
  | .bus => s.bus.inboundWaits
  | .exchange => s.pathWaits .self
  | .roster => s.roster.held.isSome

/-- Whether any source waits. -/
def Station.anyWaits (s : Station) : Bool := s.sourceWaits .bus || s.sourceWaits .exchange || s.sourceWaits .roster

/-- The order in which the sources are searched after `last` was admitted (R39). -/
def Source.after : Source → List Source
  | .bus => [.exchange, .roster, .bus]
  | .exchange => [.roster, .bus, .exchange]
  | .roster => [.bus, .exchange, .roster]

/-- The waiting source that the queue admits next (R39). -/
def Station.nextSource (s : Station) : Option Source := (s.index.admittedLast.after).find? s.sourceWaits

/-- The work item of a request frame (R148); none for a frame that is no request. -/
def Frame.workItem (f : Frame) : Option WorkItem :=
  let sender : Pair := ⟨f.sender, f.tag⟩
  match f.body with
  | .ask k => some (.ask sender k)
  | .commit k l => some (.commit sender k l)
  | .drop k => some (.drop sender k)
  | .release k l => some (.release sender k l)
  | .answer _ | .beacon _ _ => none

/-- The inbound head, a request, leaves for the index work queue (R148). -/
def Station.deliverInbound (s : Station) : Station :=
  match s.bus.inbound with
  | f :: rest =>
    match f.workItem with
    | some item => ({ s with bus.inbound := rest, bus.inboundWaits := false }).workPush item
    | none => s
  | [] => s

/-- A self-owned request of entry `i` is delivered into the index work queue (R71). -/
def Station.deliverSelf (i : EntryIndex) (s : Station) : Station :=
  match (s.entry i).request with
  | some (kind, _) =>
    let s' := (s.workPush (s.requestItem i kind)).setEntry i ((s.entry i).handedOn kind .delivered)
    { s' with exchange.nextSelf := i + 1, exchange.offerSelf := none }
  | none => s

/-- A peer-owned request of entry `i` is handed to the transmit queue (R71). -/
def Station.deliverBus (i : EntryIndex) (s : Station) : Station :=
  match (s.entry i).request with
  | some (kind, _) =>
    let s' := (s.txPush (s.requestFrame i kind) .exchange).setEntry i ((s.entry i).handedOn kind .sent)
    { s' with
      exchange.nextBus := i + 1
      exchange.offerBus := none
      bus.txLast := if s.pathWaits .bus then .exchange else s.bus.txLast }
  | none => s

/-- The roster's held PEER item joins (R154, R156). -/
def Station.deliverHeld (s : Station) : Station :=
  match s.roster.held with
  | some item => ({ s with roster.held := none }).workPush item
  | none => s

/-- A PEER item offered to the index work queue: it joins at once where there is room, and is held otherwise (R156). -/
def Station.offerPeerItem (item : WorkItem) (s : Station) : Station :=
  if s.workRoom && !s.anyWaits then s.workPush item else { s with roster.held := some item }

/-! ### The roster's beacon and cleanup orders -/

/-- A beacon is due (R160): it is queued only where none is queued already and the transmit queue has a place. -/
def Station.beaconFallsDue (s : Station) : Station :=
  if !s.roster.beaconQueued && s.txRoom then
    let s' := s.txPush ⟨s.own, 15, 0, .beacon s.roster.fresh s.control.straps.clusterSize⟩ .roster
    { s' with roster.beaconQueued := true, roster.fresh := false }
  else s

/-- The bus interface purges a peer (R149, R150). -/
def Station.purge (p : StationNo) (s : Station) : Station := { s with bus.tx := txPurge p s.bus.tx }

/-- The orders of a loss or restart of peer `p`: exchange cleanup, purge, and the PEER item (R156, R158). -/
def Station.cleanupPeer (restarted : Bool) (p : StationNo) (s : Station) : Station :=
  ((s.cleanExchange restarted p).purge p).offerPeerItem (if restarted then .peerRestarted p else .peerLost p)

end Sys2Proof.Machine
end

