-- ==== Sys2Proof/Machine/Deadlines.lean ====
section
/-! DEFINITION. The deadlines that an advance of the lease clock reaches: the test of each block, the action on each, and
how a command runs once they are acted on (section 9.2, R53, R73, R77, R88, R156, R160). -/
namespace Sys2Proof.Machine

/-! ### The tests at an advance (R164) -/

/-- A claim whose due marker is clear and whose lease deadline is reached (R53). -/
def Station.claimReached (s : Station) (p : ClaimPos) : Bool :=
  match s.index.claims[p] with
  | some c => c.due.isNone && reached s.clock.now c.deadline
  | none => false

/-- A live entry that holds a reached deadline (R164). -/
def Station.entryReached (s : Station) (i : EntryIndex) : Bool :=
  match (s.entry i).deadline with
  | some (_, d) => (s.entry i).live && reached s.clock.now d
  | none => false

/-- A SERVING peer whose silence marker is clear and whose silence deadline, last-heard plus 48, is reached (R156). -/
def Station.peerReached (s : Station) (p : StationNo) : Bool :=
  let r := s.peer p
  r.state == .serving && !r.silence && reached s.clock.now (r.lastHeard + Config.silenceTicks)

/-- The beacon deadline is reached (R160). -/
def Station.beaconReached (s : Station) : Bool :=
  match s.roster.beaconDeadline with
  | some d => reached s.clock.now d
  | none => false

/-- The deadlines that the blocks find reached at the present value of the counter (R164). -/
def Station.deadlinesReached (s : Station) : List Deadline :=
  ((List.finRange 128).filter s.claimReached).map Deadline.claim ++
    ((List.finRange 256).filter s.entryReached).map Deadline.entry ++
    (((List.finRange 15).map peerNo).filter s.peerReached).map Deadline.peer ++
    (if s.beaconReached then [.beacon] else [])

/-! ### The action on each (R164) -/

/-- The due marker of a claim set (R53). -/
def Station.markDue (p : ClaimPos) (s : Station) : Station :=
  match s.index.claims[p] with
  | some c => if s.claimReached p then s.setClaim p (some { c with due := some s.clock.advances }) else s
  | none => s

/-- The silence marker of a peer set (R156). -/
def Station.markSilence (p : StationNo) (s : Station) : Station :=
  if s.peerReached p then s.setPeer p { s.peer p with silence := true } else s

/-- The beacon deadline reached: a beacon is due and the deadline moves on by 16 (R160). -/
def Station.beaconExpired (s : Station) : Station :=
  match s.roster.beaconDeadline with
  | some d =>
    if s.beaconReached then
      { s with roster.beaconDeadline := some (d + Config.beaconTicks) }.beaconFallsDue
    else s
  | none => s

/-- An entry's deadline acted on, by its sort. -/
def Station.entryExpired (i : EntryIndex) (s : Station) : Station :=
  match (s.entry i).deadline with
  | some (sort, _) => s.expireEntry sort i
  | none => s

/-- The block that holds a deadline acts on it, where it is still reached (R164). -/
def Station.actDeadline (s : Station) : Deadline → Station
  | .claim p => s.markDue p
  | .entry i => s.entryExpired i
  | .peer p => s.markSilence p
  | .beacon => s.beaconExpired

/-! ### The end of the advance (R164, R165) -/

/-- The deadlines of a list acted on in its order, each taken off the list of those reached. -/
def Station.settleAll : List Deadline → Station → Station
  | [], s => s
  | d :: rest, s => settleAll rest (Station.actDeadline { s with clock.reached := rest } d)

/-- The station once every deadline that the present advance reached is acted on (R164, R165). -/
def Station.settled (s : Station) : Station := s.settleAll s.clock.reached

/-- A command's outcome from its effect on the station. The deadlines of the present advance that no row has acted on yet
are acted on first: R164 and R165 place their actions at the advance itself, so no command sees one reached and not acted
on (assumption 5). -/
def runEvent (f : Station → Station) (s : State) : Host.Outcome State Fault Refusal := runStation (fun t => f t.settled) s

end Sys2Proof.Machine
end

