-- ==== Sys2Proof/Machine/RosterUnit.lean ====
section
/-! DEFINITION. The roster: signs of life, presence changes, beacons heard, conflicts (chapter 8). -/
namespace Sys2Proof.Machine

/-- A sign of life from a peer (R155). -/
def Station.signOfLife (p : StationNo) (s : Station) : Station :=
  let r := s.peer p
  s.setPeer p { r with lastHeard := s.clock.now, silence := false, heard := r.heard || r.state != .serving }

/-- Whether the roster is free: no PEER report not yet appended, no PEER item not yet admitted (R154). -/
def Station.rosterFree (s : Station) : Bool := s.roster.ready.isNone && s.roster.held.isNone

/-- The record of the next peer change in turn: one whose heard or silence marker is set (R154). -/
def Station.nextChange (s : Station) : Option (Fin 15) :=
  ringFind s.roster.next fun p => (s.peer (peerNo p)).heard || (s.peer (peerNo p)).silence

/-- The peer change that the roster takes now, its first duty (R154). -/
def Station.changeDuty (s : Station) : Option (Fin 15) :=
  if s.rosterFree && s.roster.conflictOwed.isNone then s.nextChange else none

/-- PEER made ready (R154). -/
def Station.reportPeer (event : PeerEvent) (p : StationNo) (s : Station) : Station :=
  { s with roster.ready := some (.peer event p) }

/-- A conflict owed: only where none is owed and the conflict flag is clear (R159). -/
def Roster.oweConflict (c : OwedConflict) (r : Roster) : Roster :=
  if !r.conflictFlag && r.conflictOwed.isNone then { r with conflictOwed := some c } else r

/-- The change of a peer to SERVING (R155). -/
def Station.joinPeer (p : StationNo) (s : Station) : Station :=
  let r := s.peer p
  (s.setPeer p { r with state := .serving, heard := false, beaconSeen := false }).reportPeer
    (if r.state = .absent then .joined else .returned) p

/-- The change of a peer to SILENT (R156). -/
def Station.silencePeer (p : StationNo) (s : Station) : Station :=
  let r := s.peer p
  ((s.setPeer p { r with state := .silent, silence := false, beaconSeen := false }).cleanupPeer false p).reportPeer
    .silent p

/-- PEER_JOIN (R155): the first duty is a record whose heard marker is set. -/
def execPeerJoin (s : State) : Host.Outcome State Fault Refusal :=
  runEvent
    (fun t =>
      match t.changeDuty with
      | some p =>
        if (t.peer (peerNo p)).heard then { t with roster.next := p + 1 }.joinPeer (peerNo p) else t
      | none => t)
    s

/-- PEER_SILENT (R156): the first duty is a record whose silence marker is set. -/
def execPeerSilent (s : State) : Host.Outcome State Fault Refusal :=
  runEvent
    (fun t =>
      match t.changeDuty with
      | some p =>
        if (t.peer (peerNo p)).heard then t else { t with roster.next := p + 1 }.silencePeer (peerNo p)
      | none => t)
    s

/-- CONFLICT_REPORT (R159): an owed conflict report is made ready as the first duty, and the flag is set. -/
def execConflictReport (s : State) : Host.Outcome State Fault Refusal :=
  runEvent
    (fun t =>
      match t.roster.conflictOwed with
      | some c =>
        if t.rosterFree then
          let u := { t with roster.conflictOwed := none, roster.conflictFlag := true }
          match c with
          | .ownNumber => u.reportPeer .conflictOwnNumber t.own
          | .clusterSize p heard => u.reportPeer (.conflictClusterSize heard) p
        else t
      | none => t)
    s

/-- The decision on a beacon taken from the inbound head (R157, R158). -/
def Station.decideBeacon (p : StationNo) (fresh : Bool) (size : BitVec 4) (s : Station) : Station :=
  let r := s.peer p
  if size ≠ s.control.straps.clusterSize then
    let t := s.bump .conflicts
    { t with roster := t.roster.oweConflict (.clusterSize p size) }
  else if r.state ≠ .serving then s
  else if !r.beaconSeen then s.setPeer p { r with beaconSeen := true }
  else if fresh then (s.cleanupPeer true p).reportPeer .restarted p
  else s

/-- The roster takes the beacon at the inbound head, where that is its first duty (R154, R157). -/
def Station.takeBeacon (s : Station) : Station :=
  match s.bus.inbound with
  | f :: rest =>
    match f.body with
    | .beacon fresh size =>
      if s.rosterFree && s.roster.conflictOwed.isNone && s.nextChange.isNone then
        { s with bus.inbound := rest }.decideBeacon f.sender fresh size
      else s
    | _ => s
  | [] => s

/-- BEACON_TAKEN (R157). -/
def execBeaconTaken (s : State) : Host.Outcome State Fault Refusal := runEvent Station.takeBeacon s

end Sys2Proof.Machine
end

