-- ==== Sys2Proof/Machine/BusInterface.lean ====
section
/-! DEFINITION. The bus interface: contention, attempts and their outcomes, reception, dispatch (chapter 7). -/
namespace Sys2Proof.Machine

/-- Two idle cells in a row form the idle gap (R135). -/
def idleGap : Nat := 2

/-- Idle cells in a row that clear the yield state (R142). -/
def yieldIdle : Nat := 8

/-- The mark of the first frame of the queue set: it is on the line (R139, R140). -/
def markFirst : List TxFrame → List TxFrame
  | f :: rest => { f with mark := .onLine } :: rest
  | [] => []

/-- Whether the station contends (R139): RUNNING, a frame queued, yield state clear, an idle gap passed, nothing of its own
on the line. -/
def Station.contends (idle : Nat) (s : Station) : Bool :=
  s.running && !s.bus.tx.isEmpty && !s.bus.yield && decide (idleGap ≤ idle) && !s.driverOn

/-- CONTENTION (R139, R140): the first frame of the queue is offered; where it wins it is on the line, where it loses it
stays in its place with its attempt count unchanged. -/
def execContention (idle : Nat) (rivals : List (BitVec 6)) (s : State) : Host.Outcome State Fault Refusal :=
  runEvent
    (fun t =>
      match t.bus.tx with
      | f :: _ =>
        if t.contends idle then
          match arbitrate f.frame.precedence (List.range 6) rivals with
          | none => { t with bus.tx := markFirst t.bus.tx, bus.sentCells := f.frame.cells }
          | some cell => { t with bus.sentCells := f.frame.cells.take (cell + 1) }
        else t
      | [] => t)
    s

/-- The outcome of a beacon told to the roster (R160). -/
def Roster.beaconOutcome (body : FrameBody) (acknowledged : Bool) (r : Roster) : Roster :=
  let carriedFresh := match body with
    | .beacon fresh _ => fresh
    | _ => false
  { r with beaconQueued := false, fresh := r.fresh || (!acknowledged && carriedFresh) }

/-- The outcome of a frame told to the block that gave it (R144): the index unit does nothing (R44), the exchange unit
takes it by R72, the roster by R160. -/
def Station.tellOutcome (f : TxFrame) (acknowledged : Bool) (s : Station) : Station :=
  match f.producer with
  | .index => s
  | .exchange =>
    match f.frame.body.requestKind with
    | some kind => s.takeOutcome kind f.frame.tag acknowledged
    | none => s
  | .roster => { s with roster := s.roster.beaconOutcome f.frame.body acknowledged }

/-- The frame on the line leaves the transmit queue. -/
def Station.removeOnLine (s : Station) : Station :=
  { s with bus.tx := s.bus.tx.eraseP fun f => f.mark != .waiting }

/-- The frame on the line stays in its place with one failed attempt more (R144). -/
def Station.retryOnLine (s : Station) : Station :=
  { s with
    bus.tx := s.bus.tx.map fun f =>
      if f.mark = .waiting then f else { f with attempts := f.attempts + 1, mark := .waiting } }

/-- The end of the attempt of the frame on the line (R144, R150). -/
def Station.endAttempt (f : TxFrame) (success : Bool) (s : Station) : Station :=
  if success then (s.removeOnLine.bump .framesSent).tellOutcome f true
  else if f.mark = .onLinePurged then s.removeOnLine
  else if f.attempts < 3 then s.retryOnLine
  else (s.removeOnLine.bump .sendFailures).tellOutcome f false

/-- ATTEMPT_END (R141, R142, R144): an abort at the first mismatch, else the acknowledge cell decides; a BEACON that is not
aborted is complete. The yield state is set whatever the outcome. -/
def execAttemptEnd (levels : List Bool) (acknowledged : Bool) (s : State) : Host.Outcome State Fault Refusal :=
  runEvent
    (fun t =>
      match t.bus.tx.find? fun f => f.mark != .waiting with
      | some f =>
        let u := { t with bus.yield := true }
        match mismatch (f.frame.cells.drop 6) levels with
        | some cell => { u with bus.sentCells := f.frame.cells.take (cell + 7) }.endAttempt f false
        | none => u.endAttempt f (acknowledged || f.frame.dest == 15)
      | none => t)
    s

/-- YIELD_CLEAR (R142). -/
def execYieldClear (idle : Nat) (s : State) : Host.Outcome State Fault Refusal :=
  runEvent (fun t => if yieldIdle ≤ idle then { t with bus.yield := false } else t) s

/-- Whether the station receives a frame (R135, R146, R151): it is RUNNING, nothing of its own is on the line, and the start
mark followed an idle gap. `idle` counts only idle cells that the station has read since it last entered RUNNING, so a
frame already on the line at that entry, with 0, is not received. -/
def Station.receives (idle : Nat) (s : Station) : Bool := s.running && decide (idleGap ≤ idle) && !s.driverOn

/-- A good frame placed at the tail of the inbound queue where it has room, and otherwise counted as refused; `drive` is
the acknowledge of a frame addressed to the station (R143, R147). -/
def Station.placeFrame (f : Frame) (drive : Bool) (s : Station) : Station :=
  if s.bus.inbound.length < Config.inboundMax then
    { s with bus.inbound := s.bus.inbound ++ [f], bus.ackDriven := drive }.bump .framesReceived
  else s.bump .framesRefused

/-- A good frame (R147): a sign of life, then placed, or set aside where it is addressed to another station. -/
def Station.goodFrame (f : Frame) (s : Station) : Station :=
  let t := s.signOfLife f.sender
  if f.dest = 15 then t.placeFrame f false
  else if f.dest = s.own then t.placeFrame f true
  else t

/-- The receive checks on a frame that reached its acknowledge cell (R146). -/
def Station.checkFrame (cells : List Bool) (s : Station) : Station :=
  match parseFrame cells with
  | none => s.bump .checkFailures
  | some f =>
    if s.control.straps.clusterSize ≤ f.sender then s.bump .conflicts
    else if f.sender = s.own then
      let t := s.bump .conflicts
      { t with roster := t.roster.oweConflict .ownNumber }
    else s.goodFrame f

/-- FRAME_RECEIVED (R146): a frame of another station carried to its acknowledge cell also clears the yield state (R142). -/
def execFrameReceived (idle : Nat) (cells : List Bool) (s : State) : Host.Outcome State Fault Refusal :=
  runEvent
    (fun t =>
      if t.receives idle then { t with bus.yield := false, bus.ackDriven := false }.checkFrame cells else t)
    s

/-- FRAME_ABANDONED (R135, R146): a bad frame counted as a check failure. -/
def execFrameAbandoned (idle : Nat) (s : State) : Host.Outcome State Fault Refusal :=
  runEvent (fun t => if t.receives idle then t.bump .checkFailures else t) s

/-- A request at the inbound head: it joins the index work queue where that has a place and no source waits; at a full
queue it waits, and WORK_QUEUE_ADMIT admits it (R39, R148). -/
def Station.dispatchRequest (s : Station) : Station :=
  if !s.workRoom then { s with bus.inboundWaits := true } else if s.anyWaits then s else s.deliverInbound

/-- INBOUND_DISPATCH (R148): the head goes to the receiver of its type when that takes it. -/
def execInboundDispatch (s : State) : Host.Outcome State Fault Refusal :=
  runEvent
    (fun t =>
      match t.bus.inbound with
      | f :: rest =>
        match f.body with
        | .answer a => { t with bus.inbound := rest }.takeAnswer f.tag a
        | .beacon _ _ => t.takeBeacon
        | .ask _ | .commit _ _ | .drop _ | .release _ _ => t.dispatchRequest
      | [] => t)
    s

end Sys2Proof.Machine
end

