-- ==== Sys2Proof/Machine/Window.lean ====
section
/-! DEFINITION. Operations on one lane's record: the recipe window, the segment queue, the release point, the duties of
the lane's reports (chapter 6). -/
namespace Sys2Proof.Machine

/-- Whether a lane is CLOSING or SUSPENDING. -/
def Lane.draining (l : Lane) : Bool := l.state == .closing || l.state == .suspending

/-- The lane's FILLING slot, if it has one (R115: at most one, and that one last). -/
def Lane.filling (l : Lane) : Option Slot := l.window.find? fun x => x.state == .filling

/-- The lane's current descriptor: the oldest one with bytes not yet consumed (R102). -/
def Lane.currentDescriptor (l : Lane) : Option Descriptor := l.segments.find? fun d => d.consumed < d.length

/-- Whether the lane's window can take the next byte: it holds a FILLING slot or fewer than 64 slots (R100). -/
def Lane.windowReady (l : Lane) : Bool := l.filling.isSome || l.window.length < Config.windowMax

/-- The conditions of R100 on the lane's own record. -/
def Lane.eligible (l : Lane) : Bool := l.state != .free && l.currentDescriptor.isSome && l.windowReady

/-- A slot opened at the tail of the window (R116). -/
def Lane.openSlot (l : Lane) : Lane :=
  { l with
    window := l.window ++ [⟨l.record.nextRecipe, l.record.offset, 0, none, none, .filling⟩]
    record.nextRecipe := l.record.nextRecipe + 1 }

/-- A slot opened unless the window already holds a FILLING one (R103). -/
def Lane.ensureFilling (l : Lane) : Lane := if l.filling.isSome then l else l.openSlot

/-- `k` bytes consumed from the descriptor of segment `seq`: the FILLING slot's length, the descriptor's consumed count
and the lane's byte offset each advance by `k` (R103). -/
def Lane.consumeBytes (seq : Word) (k : Nat) (l : Lane) : Lane :=
  { l with
    window := l.window.map fun x => if x.state = .filling then { x with length := x.length + k } else x
    segments := l.segments.map fun d => if d.seq = seq then { d with consumed := d.consumed + k } else d
    record.offset := l.record.offset + BitVec.ofNat 48 k }

/-- The FILLING slot becomes DIGESTING (R99, R107). -/
def Lane.cutSlot (l : Lane) : Lane :=
  { l with window := l.window.map fun x => if x.state = .filling then x.enter .digesting else x }

/-- The lane's release point: the stream offset just past the last slot released (R124, R131). It is the offset of the
window's head slot, or the byte offset where the window is empty. -/
def Lane.releasePoint (l : Lane) : Offset := (l.window.head?.map (·.offset)).getD l.record.offset

/-- A descriptor is done when its end offset is at or below the release point, across the wrap (R124). -/
def Lane.descriptorDone (l : Lane) (d : Descriptor) : Bool := (l.releasePoint - d.endOffset).toNat < 2 ^ 47

/-- The end offset of a descriptor that joins the queue (R114). -/
def Lane.nextEnd (length : Nat) (l : Lane) : Offset :=
  ((l.segments.getLast?.map (·.endOffset)).getD l.record.offset) + BitVec.ofNat 48 length

/-- A descriptor joins the tail of the segment queue (R114). -/
def Lane.pushSegment (address : BitVec 64) (length : Nat) (l : Lane) : Lane :=
  { l with
    segments := l.segments ++ [⟨l.record.nextSegment, address, length, l.nextEnd length, 0⟩]
    record.nextSegment := l.record.nextSegment + 1 }

/-- The lane's counters at the release of a slot (R123). -/
def ParkedRecord.count (kind : Kind) (length : Nat) (r : ParkedRecord) : ParkedRecord :=
  let n : Offset := BitVec.ofNat 48 length
  match kind with
  | .dup => { r with chunks := r.chunks + 1, dupBytes := r.dupBytes + n }
  | .new => { r with chunks := r.chunks + 1, newBytes := r.newBytes + n }
  | .unindexed _ => { r with chunks := r.chunks + 1, unindexedBytes := r.unindexedBytes + n }
  | .doubt => { r with chunks := r.chunks + 1, newBytes := r.newBytes + n, doubtChunks := r.doubtChunks + 1 }

/-- The last reported recipe sequence number of an abort: one less than the head slot's, or than the next one where the
window is empty (R131). -/
def Lane.lastReported (l : Lane) : Word := ((l.window.head?.map (·.seq)).getD l.record.nextRecipe) - 1

/-- The report an aborted slot leaves in the abort list, if any (R131, Table 6.8). -/
def Lane.abortReport (lane : LaneNo) (l : Lane) (x : Slot) : Option Report :=
  let key : Key := ⟨l.pool, x.fp.getD 0⟩
  match x.state with
  | .resolved (.unindexed _) => some (.reclaim lane key (x.locator.getD 0))
  | .resolved .doubt => some (.doubt lane key (x.locator.getD 0))
  | _ => none

/-- The abort list of a lane (R131). -/
def Lane.buildAbortList (lane : LaneNo) (reason : AbortReason) (l : Lane) : List Report :=
  l.window.filterMap (l.abortReport lane) ++ [.aborted lane l.record.stream reason l.lastReported l.releasePoint]

/-- A lane set up by OPEN or RESUME (R118, R119). -/
def openedLane (record : ParkedRecord) (pool : Pool) : Lane where
  state := .openLane
  record := record
  pool := pool
  openedOwed := true

/-- The lane after its abort: FREE, its queue and window empty, OPENED no longer owed (R130). -/
def Lane.aborted (lane : LaneNo) (reason : AbortReason) (l : Lane) : Lane :=
  { l with
    state := .free
    segments := []
    window := []
    openedOwed := false
    abortList := l.buildAbortList lane reason }

/-- Whether a slot's STORE is owed. -/
def Slot.storeOwed (x : Slot) : Bool :=
  match x.state with
  | .storing _ owed => owed
  | _ => false

/-- The kind of a RESOLVED slot. -/
def Slot.resolvedKind (x : Slot) : Option Kind :=
  match x.state with
  | .resolved k => some k
  | _ => none

/-- The STORE owed marker cleared. -/
def Slot.storeReported (x : Slot) : Slot :=
  match x.state with
  | .storing u _ => { x with state := .storing u false }
  | _ => x

/-- Duty 1 of R125: the oldest report of the abort list. -/
def Lane.dutyAbort (l : Lane) : Option (Report × Lane) :=
  match l.abortList with
  | r :: rest => some (r, { l with abortList := rest })
  | [] => none

/-- Duty 2: OPENED, where owed. Its byte offset and next sequence numbers are those of the lane record when OPENED is made
ready, not those of the OPEN or RESUME: R118 does not say which, and a SEGMENT or a burst can come between (DESIGN CHOICE,
assumption 27). -/
def Lane.dutyOpened (lane : LaneNo) (l : Lane) : Option (Report × Lane) :=
  if l.openedOwed then some (.opened lane l.record l.pool, { l with openedOwed := false }) else none

/-- Duty 3: SEGMENT_DONE of the head descriptor, where done; the descriptor leaves the queue (R124). -/
def Lane.dutySegment (lane : LaneNo) (l : Lane) : Option (Report × Lane) :=
  match l.segments with
  | d :: rest => if l.descriptorDone d then some (.segmentDone lane d.seq, { l with segments := rest }) else none
  | [] => none

/-- Duty 4: STORE of the lowest-numbered slot whose STORE is owed. -/
def Lane.dutyStore (lane : LaneNo) (l : Lane) : Option (Report × Lane) :=
  match l.window.find? Slot.storeOwed with
  | some x => some (.store lane x.seq x.offset x.length (x.fp.getD 0), l.mapSlot x.seq Slot.storeReported)
  | none => none

/-- Duty 5: RECIPE of the head slot, where RESOLVED; the slot leaves the window and the counters advance (R122, R123). -/
def Lane.dutyRecipe (lane : LaneNo) (l : Lane) : Option (Report × Lane) :=
  match l.window with
  | x :: rest =>
    match x.resolvedKind with
    | some kind =>
      let record := l.record.count kind x.length
      some (.recipe lane x.seq x.offset x.length (x.fp.getD 0) kind (x.locator.getD 0),
        { l with window := rest, record := record })
    | none => none
  | [] => none

/-- Duty 6: CLOSED or PARKED at the end of the drain; the lane becomes FREE (R128). -/
def Lane.dutyDrained (lane : LaneNo) (l : Lane) : Option (Report × Lane) :=
  if l.window.isEmpty && l.segments.isEmpty then
    match l.state with
    | .closing => some (.closed lane l.record, { l with state := .free })
    | .suspending => some (.parked lane l.record, { l with state := .free })
    | .free | .openLane => none
  else none

/-- The first duty of a lane (R125): its report and the lane afterwards. A FREE lane has only its abort list. -/
def Lane.duty (lane : LaneNo) (l : Lane) : Option (Report × Lane) :=
  match l.dutyAbort with
  | some d => some d
  | none =>
    if l.state = .free then none
    else
      (l.dutyOpened lane).or <| (l.dutySegment lane).or <| (l.dutyStore lane).or <| (l.dutyRecipe lane).or
        (l.dutyDrained lane)

end Sys2Proof.Machine
end

