-- ==== Sys2Proof/Machine/Chunking.lean ====
section
/-! DEFINITION. The rolling hash and cut condition, consumption of a burst, the final cut, the fetch engine's requests, and
the abort of a lane (chapters 5 and 6, section 10.4). -/
namespace Sys2Proof.Machine

/-! ### The rolling hash (R97 to R99) -/

/-- The byte that leaves the hash window: the oldest of a full history, else 0 (R98). -/
def Context.outByte (c : Context) : Byte := if c.history.length = Config.historyMax then c.history.headD 0 else 0

/-- One byte into a context (R98). -/
def Context.feed (b : Byte) (c : Context) : Context where
  hash := c.hash * Config.hashMultiplier + b.setWidth 32 - c.outByte.setWidth 32 * Config.hashOutFactor
  n := c.n + 1
  history := (if c.history.length = Config.historyMax then c.history.tail else c.history) ++ [b]
  absorbed := b :: c.absorbed

/-- Whether a cut falls after the byte just taken (R99): at or past A/4 with h mod A = 0, or at 4A. -/
def Context.cuts (a : Nat) (c : Context) : Bool :=
  (Config.minChunk a ≤ c.n && c.hash.toNat % a == 0) || c.n == Config.maxChunk a

/-- The bytes of a burst consumed up to and including any cut (R103): the context after the last byte consumed, how many
were consumed, and whether a cut falls after the last. -/
def consume (a : Nat) (c : Context) : List Byte → Context × Nat × Bool
  | [] => (c, 0, false)
  | b :: rest =>
    let c' := c.feed b
    if c'.cuts a then (c', 1, true)
    else
      let r := consume a c' rest
      (r.1, r.2.1 + 1, r.2.2)

/-! ### Cuts (R99, R107) -/

/-- A lane's chunking context. -/
def Station.context (l : LaneNo) (s : Station) : Context := s.chunker.contexts[l]

/-- A lane's context replaced. -/
def Station.setContext (l : LaneNo) (c : Context) (s : Station) : Station :=
  { s with chunker.contexts := s.chunker.contexts.set l c }

/-- The lane's FILLING slot is cut: it becomes DIGESTING, its entry joins the digest FIFO with the context's length and
digest state, and the context is made fresh (R99). Where the lane has no FILLING slot nothing is cut (R107). -/
def Station.cutLane (l : LaneNo) (s : Station) : Station :=
  match (s.laneAt l).filling with
  | some x =>
    let c := s.context l
    let s' := (s.mapLane l Lane.cutSlot).setContext l {}
    { s' with chunker.digests := s'.chunker.digests ++ [⟨l, x.seq, c.n, c.absorbed⟩] }
  | none => s

/-- Whether a burst that is not void is in flight for a lane. -/
def Station.burstFor (l : LaneNo) (s : Station) : Bool :=
  match s.chunker.burst with
  | some b => b.lane == l && !b.void
  | none => false

/-- The final cut of a draining lane whose queued bytes are all consumed, with no burst in flight for it (R106, R107). -/
def Station.finalCut (l : LaneNo) (s : Station) : Station :=
  if (s.laneAt l).draining && (s.laneAt l).currentDescriptor.isNone && !s.burstFor l then s.cutLane l else s

/-- The bytes of a burst consumed for a lane (R103): a slot is opened before the first byte where none is FILLING, the
counts advance, and a cut is made where one falls. -/
def Station.consumeBurst (b : Burst) (bytes : List Byte) (s : Station) : Station :=
  let r := consume s.averageChunk (s.context b.lane) bytes
  let s1 := s.mapLane b.lane fun l => if bytes.isEmpty then l else (l.ensureFilling).consumeBytes b.segment r.2.1
  let s2 := s1.setContext b.lane r.1
  if r.2.2 then s2.cutLane b.lane else s2

/-! ### Fetch engine (R179) -/

/-- The memory read requests of a burst: at most 512 bytes each, none across a 4 KiB boundary, in address order (R179).
Each is the longest that both limits allow (assumption 8). `fuel` bounds the number of requests. -/
def splitBurst : Nat → Nat → BitVec 64 → Nat → Nat → List FetchRequest
  | 0, _, _, _, _ => []
  | fuel + 1, id, address, offset, remaining =>
    if remaining = 0 then []
    else
      let len := min (min 512 remaining) (4096 - address.toNat % 4096)
      ⟨id, address, offset, List.replicate len none, none⟩ ::
        splitBurst fuel (id + 1) (address + BitVec.ofNat 64 len) (offset + len) (remaining - len)

/-- Whether the checks before reading reject a burst: bus master enable clear, or a range past the top of the 64-bit
address space (R179). -/
def fetchRejects (busMaster : Bool) (start length : Nat) : Bool :=
  !busMaster || decide (2 ^ 64 < start + length)

/-- A burst handed to the fetch engine (R179). -/
def Station.startFetch (start length : Nat) (s : Station) : Station :=
  if fetchRejects s.fetch.busMaster start length then
    { s with fetch.burst := some ⟨BitVec.ofNat 64 start, length, true, []⟩ }
  else
    let requests := splitBurst length s.fetch.nextRequest (BitVec.ofNat 64 start) 0 length
    { s with
      fetch.burst := some ⟨BitVec.ofNat 64 start, length, false, requests⟩
      fetch.nextRequest := s.fetch.nextRequest + requests.length }

/-- The bytes of a completion placed in a request: `data` starts at byte `offset` of the burst; bytes outside the request
are not its own (R179). -/
def FetchRequest.place (offset : Nat) (data : List Byte) (r : FetchRequest) : FetchRequest :=
  { r with
    data := r.data.zipIdx.map fun x =>
      if offset ≤ r.offset + x.2 then (data[r.offset + x.2 - offset]?).or x.1 else x.1 }

/-- A request with all its bytes is good. -/
def FetchRequest.finish (r : FetchRequest) : FetchRequest :=
  if r.data.all (·.isSome) then { r with result := some .good } else r

/-- A completion for a request that has not ended: good bytes are placed, anything else ends it in error (R179). -/
def FetchRequest.complete (offset : Nat) (data : List Byte) (good : Bool) (r : FetchRequest) : FetchRequest :=
  if r.result.isSome then r
  else if good then (r.place offset data).finish
  else { r with result := some .error }

/-- A request that has not ended times out (R179). -/
def FetchRequest.expire (r : FetchRequest) : FetchRequest :=
  if r.result.isSome then r else { r with result := some .timeout }

/-- The burst with the request of name `id` changed by `f`. -/
def Fetch.mapRequest (id : Nat) (f : FetchRequest → FetchRequest) (b : Fetch) : Fetch :=
  { b with requests := b.requests.map fun r => if r.id = id then f r else r }

/-- Whether a burst has ended: rejected, or every request ended (R179). -/
def Fetch.ended (b : Fetch) : Bool := b.rejected || b.requests.all (·.result.isSome)

/-- The bytes of a burst whose requests all ended good, in address order; none for an error completion (R179). -/
def Fetch.completion (b : Fetch) : Option (List Byte) :=
  if !b.rejected && b.requests.all (fun r => r.result == some .good) then
    some (b.requests.flatMap fun r => r.data.map fun x => x.getD 0)
  else none

/-! ### Abort of a lane (R89, R105, R110, R130) -/

/-- The chunker at an abort: the lane's burst in flight is voided, its digest entries removed, its chunk in the digest
engine voided (R105, R110). -/
def Chunker.abortLane (l : LaneNo) (c : Chunker) : Chunker :=
  { c with
    burst := c.burst.map fun b => if b.lane = l then { b with void := true } else b
    digests := c.digests.filter fun d => d.lane != l
    engine := c.engine.map fun j => if j.entry.lane = l then { j with void := true } else j }

/-- Whether a tag request is a lookup of a lane. -/
def TagRequest.ofLane (l : LaneNo) : TagRequest → Bool
  | .lookup lane _ _ _ => lane == l
  | .hostRelease _ _ _ _ => false

/-- The exchange unit at an abort, for the slot of sequence number `seq`: the entry bound to it, if any (R89). -/
def Station.abortSlot (l : LaneNo) (s : Station) (seq : Word) : Station :=
  match s.boundEntry ⟨l, seq⟩ with
  | some i => s.setEntry i ((s.entry i).abortBound s.clock.now)
  | none => s

/-- The exchange unit at an abort: the lane's lookups leave the tag wait queue, and each slot's entry is dealt with
(R89). -/
def Station.abortExchange (l : LaneNo) (s : Station) : Station :=
  let seqs := (s.laneAt l).window.map (·.seq)
  seqs.foldl (Station.abortSlot l)
    { s with exchange.waitQueue := s.exchange.waitQueue.filter fun r => !r.ofLane l }

/-- A lane is aborted (R130). -/
def Station.abortLane (l : LaneNo) (reason : AbortReason) (s : Station) : Station :=
  let s' := s.abortExchange l
  { s' with chunker := s'.chunker.abortLane l }.mapLane l (Lane.aborted l reason)

end Sys2Proof.Machine
end

