-- ==== Sys2Proof/Machine/ChunkerUnit.lean ====
section
/-! DEFINITION. The commands of the chunker, the digest engine and the fetch engine (chapter 5, section 10.4). -/
namespace Sys2Proof.Machine

/-- The lane the arbiter chooses: the first eligible one from the pointer (R100, R101). -/
def Station.chosenLane (s : Station) : Option LaneNo := ringFind s.chunker.pointer fun l => (s.laneAt l).eligible

/-- A burst issued for a lane's current descriptor (R101, R102). -/
def Station.issueBurst (l : LaneNo) (d : Descriptor) (s : Station) : Station :=
  let len := min (Config.minChunk s.averageChunk) (d.length - d.consumed)
  { s with
    chunker.burst := some ⟨l, d.seq, len, false⟩
    chunker.pointer := l + 1 }.startFetch (d.address.toNat + d.consumed) len

/-- BURST_ISSUE (R102): where no burst is in flight and a lane is eligible. -/
def execBurstIssue (busMaster : Bool) (s : State) : Host.Outcome State Fault Refusal :=
  runEvent
    (fun t =>
      let u := { t with fetch.busMaster := busMaster }
      if u.chunker.burst.isSome then u
      else
        match u.chosenLane with
        | some l =>
          match (u.laneAt l).currentDescriptor with
          | some d => u.issueBurst l d
          | none => u
        | none => u)
    s

/-- FETCH_READ_COMPLETION (R179): a completion for a request of the burst in flight; one for any other request is accepted
on the link and dropped (R180). -/
def execFetchReadCompletion (request offset : Nat) (data : List Byte) (good : Bool) (s : State) :
    Host.Outcome State Fault Refusal :=
  runEvent
    (fun t =>
      { t with fetch.burst := t.fetch.burst.map (Fetch.mapRequest request (FetchRequest.complete offset data good)) })
    s

/-- FETCH_TIMEOUT (R179): a request with no completion in time ends in timeout. -/
def execFetchTimeout (request : Nat) (s : State) : Host.Outcome State Fault Refusal :=
  runEvent
    (fun t => { t with fetch.burst := t.fetch.burst.map (Fetch.mapRequest request FetchRequest.expire) }) s

/-- The completion of a burst taken by the chunker (Table 5.2): discarded where void, an abort with FETCH_ERROR where it is
an error, else consumed (R103 to R105), with the final cut of a drained lane (R106). A FREE lane takes no bytes and is not
aborted (R129), so a completion for one is discarded (assumption 29). -/
def Station.completeBurst (b : Burst) (f : Fetch) (s : Station) : Station :=
  let t := { s with chunker.burst := none, fetch.burst := none }
  if b.void || (s.laneAt b.lane).state == .free then t
  else
    match f.completion with
    | some bytes => (t.consumeBurst b bytes).finalCut b.lane
    | none => t.abortLane b.lane .fetchError

/-- BURST_COMPLETION (R103): where the fetch engine's burst has ended. -/
def execBurstCompletion (s : State) : Host.Outcome State Fault Refusal :=
  runEvent
    (fun t =>
      match t.chunker.burst, t.fetch.burst with
      | some b, some f => if f.ended then t.completeBurst b f else t
      | _, _ => t)
    s

/-- DIGEST_START (R109): the idle engine takes the head of the digest FIFO. -/
def execDigestStart (s : State) : Host.Outcome State Fault Refusal :=
  runEvent
    (fun t =>
      match t.chunker.engine, t.chunker.digests with
      | none, d :: rest => { t with chunker.engine := some ⟨d, false⟩, chunker.digests := rest }
      | _, _ => t)
    s

/-- A completed fingerprint taken by the lane unit: written into the slot, the key formed with the lane's pool, and the
slot handed to the exchange unit's checks (R1, R7, R109, R116). -/
def Station.digestDone (d : DigestEntry) (s : Station) : Station :=
  let fp := Config.fingerprint d.absorbed.reverse
  let t := s.moveSlot (some ⟨d.lane, d.seq⟩) fun x => { x with fp := some fp }
  t.lookupCheck d.lane d.seq ⟨(t.laneAt d.lane).pool, fp⟩

/-- DIGEST_COMPLETION (R109, R110, R116): a void completion writes nothing. -/
def execDigestCompletion (s : State) : Host.Outcome State Fault Refusal :=
  runEvent
    (fun t =>
      match t.chunker.engine with
      | some j =>
        let u := { t with chunker.engine := none }
        if j.void then u else u.digestDone j.entry
      | none => t)
    s

end Sys2Proof.Machine
end

