-- ==== Sys2Proof/Machine/Operands.lean ====
section
/-! DEFINITION. The entries of the command FIFO: codes and argument counts (Table 10.2) and the layout of every
command's arguments (Table 10.5a, R181). -/
namespace Sys2Proof.Machine

/-- The command code of a header, bits 7..0 (R169). -/
def CmdEntry.code (e : CmdEntry) : Byte := e.header.setWidth 8

/-- The argument count of a header, bits 12..8 (R169). -/
def CmdEntry.count (e : CmdEntry) : Nat := (e.header.extractLsb' 8 5).toNat

/-- Argument word `i` of an entry. -/
def CmdEntry.arg (i : Nat) (e : CmdEntry) : Word := e.args.getD i 0

/-- The argument count of each code of Table 10.2. -/
def commandCount (code : Nat) : Option Nat :=
  match code with
  | 1 => some 1
  | 2 => some 1
  | 3 => some 0
  | 4 => some 0
  | 5 => some 2
  | 6 => some 4
  | 7 => some 4
  | 8 => some 2
  | 9 => some 1
  | 10 => some 1
  | 11 => some 16
  | 12 => some 1
  | 13 => some 7
  | _ => none

/-- A command is known when its code is one of Table 10.2 and its argument count is the code's (R171). -/
def CmdEntry.known (e : CmdEntry) : Bool := commandCount e.code.toNat == some e.count

/-- A known entry of command code `code`. -/
def CmdEntry.isCommand (code : Nat) (e : CmdEntry) : Bool := e.code.toNat == code && e.known

/-- The lane of a lane command, bits 4..0 of argument word 0. -/
def CmdEntry.lane (e : CmdEntry) : LaneNo := ((e.arg 0).setWidth 5).toFin

/-- POOL_SET: branch 11..0 of word 0. -/
def CmdEntry.poolSetBranch (e : CmdEntry) : Branch := (e.arg 0).setWidth 12

/-- POOL_SET: pool 19..16 of word 0. -/
def CmdEntry.poolSetPool (e : CmdEntry) : Pool := (e.arg 0).extractLsb' 16 4

/-- CONFIGURE: threshold 10..0 of word 0. -/
def CmdEntry.threshold (e : CmdEntry) : Nat := ((e.arg 0).setWidth 11).toNat

/-- OPEN: branch 27..16 of word 0. -/
def CmdEntry.openBranch (e : CmdEntry) : Branch := (e.arg 0).extractLsb' 16 12

/-- OPEN: stream id, word 1. -/
def CmdEntry.openStream (e : CmdEntry) : Word := e.arg 1

/-- SEGMENT: host address, words 1 and 2. -/
def CmdEntry.segmentAddress (e : CmdEntry) : BitVec 64 := join64 (e.arg 1) (e.arg 2)

/-- SEGMENT: length, word 3 read whole. -/
def CmdEntry.segmentLength (e : CmdEntry) : Nat := (e.arg 3).toNat

/-- STORED and STORE_FAILED: recipe sequence, word 1. -/
def CmdEntry.recipeSeq (e : CmdEntry) : Word := e.arg 1

/-- STORED: locator, words 2 and 3. -/
def CmdEntry.storedLocator (e : CmdEntry) : Locator := join48 (e.arg 2) (e.arg 3)

/-- RESUME: the parked record, words 1 to 15, laid out as body words 0 to 14 of PARKED. -/
def CmdEntry.parkedRecord (e : CmdEntry) : ParkedRecord where
  stream := e.arg 1
  branch := (e.arg 2).setWidth 12
  offset := join48 (e.arg 3) (e.arg 4)
  nextRecipe := e.arg 5
  nextSegment := e.arg 6
  chunks := join48 (e.arg 7) (e.arg 8)
  dupBytes := join48 (e.arg 9) (e.arg 10)
  newBytes := join48 (e.arg 11) (e.arg 12)
  unindexedBytes := join48 (e.arg 13) (e.arg 14)
  doubtChunks := e.arg 15

/-- RELEASE: the key, pool 3..0 of word 0 and fingerprint in words 1 to 4. -/
def CmdEntry.releaseKey (e : CmdEntry) : Key :=
  ⟨(e.arg 0).setWidth 4, join128 (e.arg 1) (e.arg 2) (e.arg 3) (e.arg 4)⟩

/-- RELEASE: the cookie, 31..16 of word 0. -/
def CmdEntry.releaseCookie (e : CmdEntry) : Cookie := (e.arg 0).extractLsb' 16 16

/-- RELEASE: the locator, words 5 and 6. -/
def CmdEntry.releaseLocator (e : CmdEntry) : Locator := join48 (e.arg 5) (e.arg 6)

end Sys2Proof.Machine
end

