-- ==== Sys2Proof/Machine/Commands.lean ====
section
/-! DEFINITION. How the command unit takes the head of the command FIFO: decided whole, taken or refused, or left waiting
(R170, R171, R173). -/
namespace Sys2Proof.Machine

/-- A refusal: CMD_ERROR becomes ready with the command's lane (0 where it names none), its code and the error (R173). -/
def Station.refuse (e : CmdEntry) (lane : LaneNo) (error : CmdErrorCode) (s : Station) : Station :=
  { s with port.cmdReady := some (.cmdError lane e.code error) }

/-- The head of the command FIFO, where it is a known entry of command code `code` and the command unit holds no CMD_ERROR
(R170, R171). `decide` is given the entry and the station with the entry removed, and answers none where the command
must wait: then nothing changes. Where no such head stands, the event does not arise and nothing changes. -/
def Station.takeHead (code : Nat) (decide : CmdEntry → Station → Option Station) (s : Station) : Station :=
  match s.port.fifo with
  | e :: rest =>
    if s.port.cmdReady.isNone && e.isCommand code then (decide e { s with port.fifo := rest }).getD s else s
  | [] => s

/-- A lane command (R112, R171): refused with BAD_STATE outside RUNNING, else taken or refused by the lane unit. -/
def Station.takeLaneCommand (code : Nat) (decide : CmdEntry → Station → Except CmdErrorCode Station)
    (s : Station) : Station :=
  s.takeHead code fun e s' =>
    if s'.running then
      match decide e s' with
      | .ok t => some t
      | .error error => some (s'.refuse e e.lane error)
    else some (s'.refuse e e.lane .badState)

end Sys2Proof.Machine
end

