-- ==== Sys2Proof/Machine/ExchangeUnit.lean ====
section
/-! DEFINITION. The commands of the exchange unit (chapter 4). -/
namespace Sys2Proof.Machine

/-! ### TAG_GRANT (R70) -/

/-- The entry set up for a lookup (R70). -/
def Entry.grantLookup (lane : LaneNo) (seq : Word) (key : Key) (owner : StationNo) (e : Entry) : Entry where
  round := e.round + 1
  state := .asking
  kind := .askExchange
  owner := owner
  key := key
  binding := some ⟨lane, seq⟩
  request := some (.ask, .pending)
  attempts := 1

/-- The entry set up for a host release (R70): toward an owner not SERVING it has no request, owes RELEASED UNDELIVERED and
is closing. -/
def Entry.grantRelease (key : Key) (locator : Locator) (cookie : Cookie) (owner : StationNo) (serving : Bool)
    (e : Entry) : Entry where
  round := e.round + 1
  state := .releasing
  kind := .hostRelease
  owner := owner
  key := key
  locator := some locator
  cookie := some cookie
  request := if serving then some (.release, .pending) else none
  attempts := 1
  owed := if serving then none else some (.released .undelivered)
  closing := !serving

/-- The request at the head of the tag wait queue granted entry `i`, or its slot stored unindexed where the owner of a
lookup is no longer SERVING (R70). -/
def Station.grant (r : TagRequest) (i : EntryIndex) (s : Station) : Station :=
  match r with
  | .lookup lane seq key owner =>
    if s.serving owner then
      (s.moveSlot (some ⟨lane, seq⟩) (Slot.enter .asking)).setEntry i ((s.entry i).grantLookup lane seq key owner)
    else s.storeUnindexed .ownerAbsent (some ⟨lane, seq⟩)
  | .hostRelease key locator cookie owner =>
    s.setEntry i ((s.entry i).grantRelease key locator cookie owner (s.serving owner))

/-- The lowest FREE entry (R64). -/
def Station.freeEntry (s : Station) : Option EntryIndex := lowestFind fun i => !(s.entry i).live

/-- TAG_GRANT (R70): where the tag wait queue is not empty and an entry is FREE. -/
def execTagGrant (s : State) : Host.Outcome State Fault Refusal :=
  runEvent
    (fun t =>
      match t.exchange.waitQueue, t.freeEntry with
      | r :: rest, some i => { t with exchange.waitQueue := rest }.grant r i
      | _, _ => t)
    s

/-! ### REQUEST_HAND_ON (R71) -/

/-- The self path: the offered request is delivered where the index work queue has a place and no source waits; at a full
queue it waits, and WORK_QUEUE_ADMIT admits it (R39, R71). -/
def Station.handOnSelf (i : EntryIndex) (s : Station) : Station :=
  if !s.workRoom then s.recordOffer .self i else if s.anyWaits then s else s.deliverSelf i

/-- The bus path: the offered request is handed on where the transmit queue has a place for the exchange unit; at a full
queue it waits (R71, R138). -/
def Station.handOnBus (i : EntryIndex) (s : Station) : Station :=
  if !s.txRoom then s.recordOffer .bus i else if s.exchangeTurn then s.deliverBus i else s

/-- REQUEST_HAND_ON (R71). -/
def execRequestHandOn (path : HandOnPath) (s : State) : Host.Outcome State Fault Refusal :=
  runEvent
    (fun t =>
      match t.offered path with
      | some i =>
        match path with
        | .self => t.handOnSelf i
        | .bus => t.handOnBus i
      | none => t)
    s

/-! ### EXCHANGE_REPORT_READY (R83) -/

/-- The report an entry owes, with the contents of R83; the exchange unit's reports carry lane 0. -/
def Entry.report (e : Entry) : Option Report :=
  match e.owed with
  | some (.reclaim l) => some (.reclaim 0 e.key l)
  | some (.doubt l) => some (.doubt 0 e.key l)
  | some (.released o) => some (.released o (e.locator.getD 0) (e.cookie.getD 0))
  | none => none

/-- An entry whose owed report was made ready: a closing entry with no request left is freed (R83). -/
def Entry.reportMade (e : Entry) : Entry :=
  if e.closing && e.request.isNone then e.freed else { e with owed := none }

/-- Whether a host RELEASE of pool 15 waits at the head of the command FIFO: its report is made ready before any owed
report (R83). -/
def Station.isolatedReleaseWaits (s : Station) : Bool :=
  match s.port.fifo with
  | e :: _ =>
    s.running && s.port.cmdReady.isNone && e.isCommand 13 && e.releaseLocator != 0 && e.releaseKey.pool == 15
  | [] => false

/-- The entry whose owed report is made ready next (R83). -/
def Station.nextOwing (s : Station) : Option EntryIndex :=
  ringFind s.exchange.nextReport fun i => (s.entry i).owed.isSome

/-- EXCHANGE_REPORT_READY (R83). -/
def execExchangeReportReady (s : State) : Host.Outcome State Fault Refusal :=
  runEvent
    (fun t =>
      if t.exchange.ready.isSome || t.isolatedReleaseWaits then t
      else
        match t.nextOwing with
        | some i =>
          let u := t.setEntry i (t.entry i).reportMade
          { u with exchange.ready := (t.entry i).report, exchange.nextReport := i + 1 }
        | none => t)
    s

end Sys2Proof.Machine
end

