-- ==== Sys2Proof/Machine/Shard.lean ====
section
/-! DEFINITION. Buckets and the shard table: serialisation and check code, the damage check, finding, installing, counting
and removing entries, table memory, and a write cut short by a reset (chapter 2). -/
namespace Sys2Proof.Machine

/-- The 197 bits of a place in the order the check code takes them (R17). -/
def Place.bits (p : Place) : List Bool :=
  p.used :: (bitsOf p.pool ++ bitsOf p.fp ++ bitsOf p.locator ++ bitsOf p.count)

/-- The 1,576 bits of eight places (R17). -/
def placesBits (places : Vector Place 8) : List Bool := places.toList.flatMap Place.bits

/-- A bucket with the check code of its places, as the index unit writes every bucket (R17, R23). -/
def sealPlaces (places : Vector Place 8) : Bucket := ⟨places, crc16 (placesBits places)⟩

/-- Eight empty places. -/
def emptyPlaces : Vector Place 8 := Vector.replicate 8 {}

/-- The bucket that the scrub writes: eight empty places and their check code (R28). -/
def emptyBucket : Bucket := sealPlaces emptyPlaces

/-- What a bucket that has never been written since table memory was powered reads as. Section 2.4 says such a bucket is
damaged; the contents are DESIGN CHOICE, assumption 2: eight empty places with another check code than theirs. -/
def unwrittenBucket : Bucket := ⟨emptyPlaces, ~~~crc16 (placesBits emptyPlaces)⟩

/-- The key a place's fields spell. -/
def Place.key (p : Place) : Key := ⟨p.pool, p.fp⟩

/-- The conditions of R16 on one place of bucket `b`. -/
def Place.wellFormed (b : Nat) (p : Place) : Bool :=
  if p.used then p.pool != 15 && p.locator != 0 && p.count != 0 && bucketIndex p.key == b else p == {}

/-- The keys of the entries standing in a bucket's places. -/
def placesKeys (places : Vector Place 8) : List Key := (places.toList.filter (·.used)).map Place.key

/-- The damage check: whether bucket `b` is well formed (R16). -/
def Bucket.wellFormed (b : Nat) (k : Bucket) : Bool :=
  k.code == crc16 (placesBits k.places) && k.places.toList.all (Place.wellFormed b) &&
    decide (placesKeys k.places).Nodup

/-- How many committed entries stand in the places. -/
def entryCount (places : Vector Place 8) : Nat := places.toList.countP (·.used)

/-- The place that holds an entry of a key (R22). -/
def findPlace (key : Key) (places : Vector Place 8) : Option (Fin 8) :=
  lowestFind fun i => places[i].used && places[i].key == key

/-- The lowest-numbered empty place (R22). -/
def emptyPlace (places : Vector Place 8) : Option (Fin 8) := lowestFind fun i => !places[i].used

/-- An entry installed in the lowest-numbered empty place (R22, R49, R50). R37 keeps a place free for it; were none
empty, the places would stay as they are. -/
def installPlace (key : Key) (locator : Locator) (count : BitVec 16) (places : Vector Place 8) : Vector Place 8 :=
  match emptyPlace places with
  | some i => places.set i ⟨true, key.pool, key.fp, locator, count⟩
  | none => places

/-- A place's count replaced (R22). -/
def setCount (i : Fin 8) (count : BitVec 16) (places : Vector Place 8) : Vector Place 8 :=
  places.set i { places[i] with count := count }

/-- A place emptied (R19). -/
def clearPlace (i : Fin 8) (places : Vector Place 8) : Vector Place 8 := places.set i {}

/-- A count raised by one step: whether it moved, and the places (R18). -/
def raiseCount (i : Fin 8) (places : Vector Place 8) : Bool × Vector Place 8 :=
  if places[i].count = Config.pinnedCount then (false, places) else (true, setCount i (places[i].count + 1) places)

/-! ### Table memory (R14, R31) -/

/-- What an unlisted bucket reads as. -/
def ShardTable.dflt (t : ShardTable) (b : Nat) : Bucket := if b < t.horizon then emptyBucket else unwrittenBucket

/-- A bucket as table memory holds it. -/
def ShardTable.read (t : ShardTable) (b : Nat) : Bucket := cellsRead t.dflt b t.cells

/-- A bucket written whole (R14). -/
def ShardTable.write (t : ShardTable) (b : Nat) (k : Bucket) : ShardTable :=
  { t with cells := cellsWrite t.dflt b k t.cells }

/-- A bucket written empty by the scrub (R28). Where it is the first bucket not yet written by a scrub, the horizon
passes it. -/
def ShardTable.scrubWrite (t : ShardTable) (b : Nat) : ShardTable :=
  if b = t.horizon then ⟨cellsErase b t.cells, b + 1⟩ else t.write b emptyBucket

/-- The canonical form of table memory. -/
abbrev ShardTable.wf (t : ShardTable) : Prop := cellsCanonical t.dflt t.cells

/-- Bits of `new` where the mask is set, of `old` elsewhere. -/
def mixBits {w : Nat} (mask old new : BitVec w) : BitVec w := (old &&& ~~~mask) ||| (new &&& mask)

/-- A place of which only the part named by the mask was replaced (R33). -/
def mixPlace (mask : BitVec 197) (old new : Place) : Place where
  used := if mask.getLsbD 196 then new.used else old.used
  pool := mixBits (mask.extractLsb' 192 4) old.pool new.pool
  fp := mixBits (mask.extractLsb' 64 128) old.fp new.fp
  locator := mixBits (mask.extractLsb' 16 48) old.locator new.locator
  count := mixBits (mask.extractLsb' 0 16) old.count new.count

/-- The bucket that the `k`-th write cut short leaves: a mixture of old and new contents with the check code of either
(R33). Which is a free value. -/
def tornBucket (k : Nat) (old new : Bucket) : Bucket where
  places := Vector.ofFn fun i => mixPlace (Config.tornPlace k i) old.places[i] new.places[i]
  code := if Config.tornCodeIsNew k then new.code else old.code

/-- Table memory after a write of `new` to bucket `b` is cut short by a reset (R32, R33), and the count of such writes
advanced. -/
def Station.tearWrite (b : Nat) (new : Bucket) (s : Station) : Station :=
  { s with
    index.table := s.index.table.write b (tornBucket s.torn (s.index.table.read b) new)
    torn := s.torn + 1 }

end Sys2Proof.Machine
end

