-- ==== Sys2Proof/Machine/IndexOps.lean ====
section
/-! DEFINITION. The index unit: when it may begin, bucket operations, claims, and the decisions on every work item and
lease expiry (chapters 2 and 3). -/
namespace Sys2Proof.Machine

/-! ### Beginning and ending an operation (R21 to R25, R40) -/

/-- Whether the index unit may begin an operation: RUNNING, no operation in flight, no answers waiting to be handed on, no
BUCKET_LOST held (R40). -/
def Station.indexFree (s : Station) : Bool :=
  s.running && s.index.write.isNone && s.index.answers.isEmpty && s.index.ready.isNone

/-- A claim's position, its due stamp, where a claim stands and is due. -/
def Station.dueAt (s : Station) (p : ClaimPos) : Option Nat := (s.index.claims[p]).bind (·.due)

/-- The claim whose expiry is taken: the one whose deadline was reached earliest, at the lowest position among those of one
tick (R40). -/
def Station.firstDue (s : Station) : Option ClaimPos :=
  match ((List.finRange 128).filterMap s.dueAt).min? with
  | some n => lowestFind fun p => s.dueAt p == some n
  | none => none

/-- Whether the index unit takes the head item of its queue: it may begin and no claim is due (R40). -/
def Station.takesItem (s : Station) : Bool := s.indexFree && s.firstDue.isNone

/-- The head of the index work queue, where the index unit takes an item and `select` accepts it: the item leaves the
queue and `act` runs (R40). Otherwise the event does not arise and nothing changes. -/
def Station.takeItem {α : Type} (select : WorkItem → Option α) (act : α → Station → Station) (s : Station) : Station :=
  match s.index.queue with
  | item :: rest =>
    match select item with
    | some x => if s.takesItem then act x { s with index.queue := rest } else s
    | none => s
  | [] => s

/-- What the read of a bucket gives an operation: its places after the damage check, whether it was damaged, and the
station with the finding counted and BUCKET_LOST made ready (R22, R25). -/
structure BucketRead where
  places : Vector Place 8
  damaged : Bool
  station : Station

/-- The read of a bucket and its damage check (R22, R25). -/
def Station.openBucket (b : Nat) (s : Station) : BucketRead :=
  if (s.index.table.read b).wellFormed b then ⟨(s.index.table.read b).places, false, s⟩
  else
    let t := s.bump .bucketsLost
    ⟨emptyPlaces, true, { t with index.ready := some (.bucketLost b) }⟩

/-- What an operation decides: the places it leaves, whether they changed, its answers in order, and the station with the
claim-table changes and counts (R23, R41). -/
structure Decision where
  places : Vector Place 8
  changed : Bool
  answers : List Answer
  station : Station

/-- The end of the decision: the bucket is written back where its contents changed or it was damaged, and the answers wait
to be handed on at completion (R23). -/
def Station.closeBucket (b : Nat) (r : BucketRead) (decide : BucketRead → Decision) : Station :=
  let d := decide r
  { d.station with
    index.write := if r.damaged || d.changed then some (b, sealPlaces d.places) else none
    index.answers := d.answers }

/-- A whole bucket operation on bucket `b` (R21 to R25). -/
def Station.bucketOperation (b : Nat) (decide : BucketRead → Decision) (s : Station) : Station :=
  Station.closeBucket b (s.openBucket b) decide

/-! ### Claims (R34 to R37, R51) -/

/-- The position of the claim of a key, if one stands. -/
def Station.claimOf (key : Key) (s : Station) : Option ClaimPos :=
  lowestFind fun p => match s.index.claims[p] with
    | some c => c.key == key
    | none => false

/-- The lowest free position of the claim table (R34). -/
def Station.freeClaim (s : Station) : Option ClaimPos := lowestFind fun p => (s.index.claims[p]).isNone

/-- How many claims are recorded against a bucket. -/
def Station.claimsOn (b : Nat) (s : Station) : Nat :=
  s.index.claims.toList.countP fun c => match c with
    | some c => c.bucket == b
    | none => false

/-- The bucket sum: committed entries plus claims (R37). -/
def bucketSum (b : Nat) (places : Vector Place 8) (s : Station) : Nat := entryCount places + s.claimsOn b

/-- A claim passed to its oldest waiter, or none where no one waits (R51). -/
def Claim.promoted (now : Tick) (c : Claim) : Option Claim :=
  match c.waiters with
  | w :: rest => some { c with writer := w, deadline := now + Config.leaseTicks, due := none, waiters := rest }
  | [] => none

/-- The release of a claim at a position (R51): promotion with NOTICE WRITE to the new writer, or removal. -/
def Station.releaseClaim (p : ClaimPos) (c : Claim) (s : Station) : List Answer × Station :=
  match c.promoted s.clock.now with
  | some c' => ([⟨c'.writer, .notice .write⟩], (s.setClaim p (some c')).bump .promotions)
  | none => ([], s.setClaim p none)

/-! ### ASK (R45 to R47) -/

/-- An ASK for a claimed key (R46). -/
def Station.askClaimed (sender : Pair) (p : ClaimPos) (c : Claim) (s : Station) : Verdict × Station :=
  if sender = c.writer then (.write, s.bump .writeVerdicts)
  else if sender ∈ c.waiters then (.hold, s)
  else if c.waiters.length < Config.maxWaiters then
    (.hold, s.setClaim p (some { c with waiters := c.waiters ++ [sender] }))
  else (.noindex .waitersFull, s)

/-- The claim an ASK creates (R47). -/
def newClaim (sender : Pair) (key : Key) (now : Tick) : Claim :=
  ⟨key, bucketIndex key, sender, now + Config.leaseTicks, none, []⟩

/-- An ASK for a key neither committed nor claimed (R47). -/
def Station.askAbsent (sender : Pair) (key : Key) (places : Vector Place 8) (s : Station) : Verdict × Station :=
  match s.freeClaim with
  | none => (.noindex .claimsFull, s)
  | some p =>
    if Config.placesPerBucket ≤ bucketSum (bucketIndex key) places s then (.noindex .bucketFull, s)
    else
      (.write, ((s.setClaim p (some (newClaim sender key s.clock.now))).bump .claimsCreated).bump .writeVerdicts)

/-- The decision on an ASK (R45). -/
def decideAsk (sender : Pair) (key : Key) (r : BucketRead) : Decision :=
  let s := r.station
  if key.pool = 15 then ⟨r.places, false, [⟨sender, .verdict (.noindex .poolIsolated)⟩], s⟩
  else
    match findPlace key r.places with
    | some i =>
      let raised := raiseCount i r.places
      ⟨raised.2, raised.1, [⟨sender, .verdict (.known r.places[i].locator)⟩], s.bump .knownVerdicts⟩
    | none =>
      let v := match s.claimOf key with
        | some p =>
          match s.index.claims[p] with
          | some c => s.askClaimed sender p c
          | none => s.askAbsent sender key r.places
        | none => s.askAbsent sender key r.places
      ⟨r.places, false, [⟨sender, .verdict v.1⟩], v.2⟩

/-! ### COMMIT (R48 to R50) -/

/-- A COMMIT for a committed key (R48). -/
def commitCommitted (sender : Pair) (locator : Locator) (i : Fin 8) (r : BucketRead) : Decision :=
  if r.places[i].locator = locator then ⟨r.places, false, [⟨sender, .commitReply .indexed⟩], r.station⟩
  else
    let raised := raiseCount i r.places
    ⟨raised.2, raised.1, [⟨sender, .commitReply (.superseded r.places[i].locator)⟩], r.station⟩

/-- A COMMIT for a claimed key installs it, whoever the claim's writer is (R49). -/
def commitClaimed (sender : Pair) (key : Key) (locator : Locator) (p : ClaimPos) (c : Claim) (r : BucketRead) :
    Decision :=
  let waiters := c.waiters.erase sender
  ⟨installPlace key locator (BitVec.ofNat 16 (1 + waiters.length)) r.places, true,
    ⟨sender, .commitReply .indexed⟩ :: waiters.map (fun w => ⟨w, .notice (.known locator)⟩),
    r.station.setClaim p none⟩

/-- A COMMIT for a key neither committed nor claimed (R50). -/
def commitAbsent (sender : Pair) (key : Key) (locator : Locator) (r : BucketRead) : Decision :=
  if bucketSum (bucketIndex key) r.places r.station < Config.placesPerBucket then
    ⟨installPlace key locator 1 r.places, true, [⟨sender, .commitReply .indexed⟩], r.station⟩
  else ⟨r.places, false, [⟨sender, .commitReply .notIndexed⟩], r.station⟩

/-- The decision on a COMMIT (R11, R48 to R50). -/
def decideCommit (sender : Pair) (key : Key) (locator : Locator) (r : BucketRead) : Decision :=
  if key.pool = 15 then ⟨r.places, false, [⟨sender, .commitReply .notIndexed⟩], r.station⟩
  else
    match findPlace key r.places with
    | some i => commitCommitted sender locator i r
    | none =>
      match r.station.claimOf key with
      | some p =>
        match r.station.index.claims[p] with
        | some c => commitClaimed sender key locator p c r
        | none => commitAbsent sender key locator r
      | none => commitAbsent sender key locator r

/-! ### DROP, lease expiry, RELEASE (R52, R54, R57) -/

/-- The decision on a DROP (R52): the claim's writer releases it; any other DROP is stale. -/
def decideDrop (sender : Pair) (key : Key) (r : BucketRead) : Decision :=
  let stale : Decision := ⟨r.places, false, [], r.station.bump .staleDrops⟩
  match r.station.claimOf key with
  | some p =>
    match r.station.index.claims[p] with
    | some c =>
      if c.writer = sender then
        let out := r.station.releaseClaim p c
        ⟨r.places, false, out.1, out.2⟩
      else stale
    | none => stale
  | none => stale

/-- The decision on a lease expiry (R54): the claim is released and the expiry counted. -/
def decideExpiry (p : ClaimPos) (c : Claim) (r : BucketRead) : Decision :=
  let out := (r.station.bump .leaseExpiries).releaseClaim p c
  ⟨r.places, false, out.1, out.2⟩

/-- The release record of a sender (R57). -/
def Station.releaseRecord (sender : StationNo) (s : Station) : Option ReleaseRecord :=
  (s.index.records[sender.toNat]?).getD none

/-- What a RELEASE does to the places and replies, by R19. -/
def releaseEntry (key : Key) (locator : Locator) (places : Vector Place 8) :
    Vector Place 8 × Bool × ReleaseOutcome :=
  match findPlace key places with
  | some i =>
    if places[i].locator ≠ locator then (places, false, .notFound)
    else if places[i].count = Config.pinnedCount then (places, false, .pinned)
    else if places[i].count = 1 then (clearPlace i places, true, .retired)
    else (setCount i (places[i].count - 1) places, true, .counted)
  | none => (places, false, .notFound)

/-- The decision on a RELEASE item (R57): a repeat is answered with its recorded reply; any other is decided by R19 and
recorded for its sender. -/
def decideRelease (sender : Pair) (key : Key) (locator : Locator) (r : BucketRead) : Decision :=
  let fresh : Decision :=
    let out := releaseEntry key locator r.places
    ⟨out.1, out.2.1, [⟨sender, .releaseReply out.2.2⟩],
      { r.station with
        index.records := r.station.index.records.setIfInBounds sender.station.toNat
          (some ⟨sender.tag, key, locator, out.2.2⟩) }⟩
  match r.station.releaseRecord sender.station with
  | some x =>
    if x.tag = sender.tag ∧ x.key = key ∧ x.locator = locator then
      ⟨r.places, false, [⟨sender, .releaseReply x.reply⟩], r.station⟩
    else fresh
  | none => fresh

/-! ### PEER items (R58) -/

/-- One position of the claim table under a PEER item: the peer's waiters are removed, and a claim it writes is
released (R58). -/
def Station.clearPeerAt (peer : StationNo) (acc : List Answer × Station) (p : ClaimPos) : List Answer × Station :=
  match acc.2.index.claims[p] with
  | some c =>
    let c' := { c with waiters := c.waiters.filter fun w => w.station != peer }
    if c.writer.station = peer then
      let out := acc.2.releaseClaim p c'
      (acc.1 ++ out.1, out.2)
    else (acc.1, acc.2.setClaim p (some c'))
  | none => acc

/-- A PEER-LOST or PEER-RESTARTED item (R58): no bucket is read or written. -/
def Station.clearPeer (peer : StationNo) (s : Station) : Station :=
  let out := (List.finRange 128).foldl (Station.clearPeerAt peer) ([], s)
  { out.2 with index.answers := out.1 }

end Sys2Proof.Machine
end

