-- ==== Sys2Proof/Machine/IndexUnit.lean ====
section
/-! DEFINITION. The commands of the index unit (chapter 3). -/
namespace Sys2Proof.Machine

/-- LEASE_EXPIRY (R54): where the index unit may begin and a claim is due, the expiry of R40's choice is taken against the
bucket the claim records. -/
def execLeaseExpiry (s : State) : Host.Outcome State Fault Refusal :=
  runEvent
    (fun t =>
      match t.firstDue with
      | some p =>
        match t.index.claims[p] with
        | some c => if t.indexFree then t.bucketOperation c.bucket (decideExpiry p c) else t
        | none => t
      | none => t)
    s

/-- ASK (R45). -/
def execAsk (s : State) : Host.Outcome State Fault Refusal :=
  runEvent
    (Station.takeItem (fun | .ask sender key => some (sender, key) | _ => none)
      fun x t => t.bucketOperation (bucketIndex x.2) (decideAsk x.1 x.2))
    s

/-- COMMIT (R48 to R50). -/
def execCommit (s : State) : Host.Outcome State Fault Refusal :=
  runEvent
    (Station.takeItem (fun | .commit sender key locator => some (sender, key, locator) | _ => none)
      fun x t => t.bucketOperation (bucketIndex x.2.1) (decideCommit x.1 x.2.1 x.2.2))
    s

/-- DROP (R52). -/
def execDrop (s : State) : Host.Outcome State Fault Refusal :=
  runEvent
    (Station.takeItem (fun | .drop sender key => some (sender, key) | _ => none)
      fun x t => t.bucketOperation (bucketIndex x.2) (decideDrop x.1 x.2))
    s

/-- RELEASE_ITEM (R57). -/
def execReleaseItem (s : State) : Host.Outcome State Fault Refusal :=
  runEvent
    (Station.takeItem (fun | .release sender key locator => some (sender, key, locator) | _ => none)
      fun x t => t.bucketOperation (bucketIndex x.2.1) (decideRelease x.1 x.2.1 x.2.2))
    s

/-- PEER_LOST (R58). -/
def execPeerLost (s : State) : Host.Outcome State Fault Refusal :=
  runEvent (Station.takeItem (fun | .peerLost peer => some peer | _ => none) Station.clearPeer) s

/-- PEER_RESTARTED (R58): handled as PEER-LOST. -/
def execPeerRestarted (s : State) : Host.Outcome State Fault Refusal :=
  runEvent (Station.takeItem (fun | .peerRestarted peer => some peer | _ => none) Station.clearPeer) s

/-- BUCKET_WRITE_DONE (R23): the write-back in flight is in table memory and the operation is complete. -/
def execBucketWriteDone (s : State) : Host.Outcome State Fault Refusal :=
  runEvent
    (fun t =>
      match t.index.write with
      | some (b, k) => { t with index.table := t.index.table.write b k, index.write := none }
      | none => t)
    s

/-- The next answer handed on (R42, R43): inside the station at once; as a frame where the transmit queue has a place for
the index unit, which otherwise waits. -/
def Station.handOnAnswer (a : Answer) (rest : List Answer) (s : Station) : Station :=
  if a.dest.station = s.own then ({ s with index.answers := rest }).takeAnswer a.dest.tag a.body
  else if !s.txRoom then { s with bus.indexWaits := true }
  else if s.indexTurn then
    let t := s.txPush (answerFrame s.own a) .index
    { t with
      index.answers := rest
      bus.indexWaits := false
      bus.txLast := if s.bus.indexWaits then .index else s.bus.txLast }
  else s

/-- ANSWER_HAND_ON (R43): the operation's next answer, once its write-back is complete (R23). -/
def execAnswerHandOn (s : State) : Host.Outcome State Fault Refusal :=
  runEvent
    (fun t =>
      match t.index.answers with
      | a :: rest => if t.index.write.isNone then t.handOnAnswer a rest else t
      | [] => t)
    s

/-- The item of a waiting source admitted (R39). -/
def Station.admitSource (src : Source) (s : Station) : Station :=
  let t := match src with
    | .bus => s.deliverInbound
    | .exchange =>
      match s.exchange.offerSelf with
      | some o => s.deliverSelf o.index
      | none => s
    | .roster => s.deliverHeld
  { t with index.admittedLast := src }

/-- WORK_QUEUE_ADMIT (R39): where a place is free, one waiting source's item is admitted round-robin. -/
def execWorkQueueAdmit (s : State) : Host.Outcome State Fault Refusal :=
  runEvent
    (fun t =>
      if t.workRoom then
        match t.nextSource with
        | some src => t.admitSource src
        | none => t
      else t)
    s

end Sys2Proof.Machine
end

