-- ==== Sys2Proof/Machine/LaneCommands.lean ====
section
/-! DEFINITION. The lane unit: the lane commands and its reports (chapter 6). -/
namespace Sys2Proof.Machine

/-! ### OPEN and RESUME (R118, R119) -/

/-- A FREE lane with an empty abort list is set up with a record; its pool is read from the pool table for the record's
branch, its chunking context is made fresh, OPENED is owed. Any other lane refuses with LANE_BUSY (Table 6.2). -/
def Station.setUpLane (l : LaneNo) (record : ParkedRecord) (s : Station) : Except CmdErrorCode Station :=
  if (s.laneAt l).state = .free ∧ (s.laneAt l).abortList = [] then
    .ok ((s.mapLane l fun _ => openedLane record (s.poolOf record.branch)).setContext l {})
  else .error .laneBusy

/-- OPEN (R118): byte offset, sequence numbers and counters are 0. -/
def execOpenLane (s : State) : Host.Outcome State Fault Refusal :=
  runEvent
    (Station.takeLaneCommand 5 fun e t =>
      t.setUpLane e.lane { stream := e.openStream, branch := e.openBranch })
    s

/-- RESUME (R119): each field of the parked record is written into the lane record. -/
def execResume (s : State) : Host.Outcome State Fault Refusal :=
  runEvent (Station.takeLaneCommand 11 fun e t => t.setUpLane e.lane e.parkedRecord) s

/-! ### SEGMENT (R114) -/

/-- The decision on a SEGMENT. -/
def Station.decideSegment (e : CmdEntry) (s : Station) : Except CmdErrorCode Station :=
  let lane := s.laneAt e.lane
  if lane.state = .free then .error .laneFree
  else if lane.draining then .error .laneEnding
  else if e.segmentLength = 0 ∨ Config.segmentMax < e.segmentLength then .error .badLength
  else if Config.segmentQueueMax ≤ lane.segments.length then .error .queueFull
  else .ok (s.mapLane e.lane (Lane.pushSegment e.segmentAddress e.segmentLength))

/-- SEGMENT (R114). -/
def execSegment (s : State) : Host.Outcome State Fault Refusal :=
  runEvent (Station.takeLaneCommand 6 fun e t => t.decideSegment e) s

/-! ### STORED and STORE_FAILED (R78, R120, R121) -/

/-- The unindexed marker and reason of a slot that is STORING with its STORE reported. -/
def Slot.storingReported (x : Slot) : Option (Option Reason) :=
  match x.state with
  | .storing u false => some u
  | _ => none

/-- The STORING slot, its STORE reported, that a sequence number names in a lane's window (R120). -/
def Lane.storingSlot (seq : Word) (l : Lane) : Option (Option Reason) := (l.slot seq).bind Slot.storingReported

/-- The exchange unit is handed the locator of a stored indexed slot: the bound entry records it and sends COMMIT (R78). -/
def Station.commitBound (b : Binding) (locator : Locator) (s : Station) : Station :=
  match s.boundEntry b with
  | some i =>
    s.setEntry i
      { s.entry i with
        state := .committing
        locator := some locator
        request := some (.commit, .pending)
        attempts := 1
        ackedOnce := false
        deadline := none }
  | none => s

/-- A STORED that is taken (R120): an indexed slot passes to COMMITTING, an unindexed one to RESOLVED UNINDEXED. -/
def Station.storedSlot (b : Binding) (unindexed : Option Reason) (locator : Locator) (s : Station) : Station :=
  match unindexed with
  | none =>
    (s.moveSlot (some b) fun x => { x with state := .committing, locator := some locator }).commitBound b locator
  | some r => s.moveSlot (some b) (Slot.resolve (.unindexed r) locator)

/-- The decision on a STORED. -/
def Station.decideStored (e : CmdEntry) (s : Station) : Except CmdErrorCode Station :=
  let lane := s.laneAt e.lane
  if lane.state = .free then .error .laneFree
  else if e.storedLocator = 0 then .error .badLocator
  else
    match lane.storingSlot e.recipeSeq with
    | some u => .ok (s.storedSlot ⟨e.lane, e.recipeSeq⟩ u e.storedLocator)
    | none => .error .notStoring

/-- STORED (R120). -/
def execStored (s : State) : Host.Outcome State Fault Refusal :=
  runEvent (Station.takeLaneCommand 7 fun e t => t.decideStored e) s

/-- The decision on a STORE_FAILED (R121): a STORING slot whose STORE was reported aborts the lane. -/
def Station.decideStoreFailed (e : CmdEntry) (s : Station) : Except CmdErrorCode Station :=
  let lane := s.laneAt e.lane
  if lane.state = .free then .error .laneFree
  else if (lane.storingSlot e.recipeSeq).isSome then .ok (s.abortLane e.lane .storeFailed)
  else .error .notStoring

/-- STORE_FAILED (R121). -/
def execStoreFailed (s : State) : Host.Outcome State Fault Refusal :=
  runEvent (Station.takeLaneCommand 8 fun e t => t.decideStoreFailed e) s

/-! ### CLOSE, SUSPEND and ABORT (R127, R129) -/

/-- CLOSE and SUSPEND: an OPEN lane takes the ending state, and the final cut is made at once where the lane's bytes are
all consumed and no burst is in flight for it (R106, R127). -/
def Station.endLane (state : LaneState) (l : LaneNo) (s : Station) : Except CmdErrorCode Station :=
  match (s.laneAt l).state with
  | .free => .error .laneFree
  | .openLane => .ok ((s.mapLane l fun x => { x with state := state }).finalCut l)
  | .closing | .suspending => .error .laneEnding

/-- CLOSE (R127). -/
def execClose (s : State) : Host.Outcome State Fault Refusal :=
  runEvent (Station.takeLaneCommand 9 fun e t => t.endLane .closing e.lane) s

/-- SUSPEND (R127). -/
def execSuspend (s : State) : Host.Outcome State Fault Refusal :=
  runEvent (Station.takeLaneCommand 10 fun e t => t.endLane .suspending e.lane) s

/-- The decision on an ABORT (R129). -/
def Station.decideAbort (e : CmdEntry) (s : Station) : Except CmdErrorCode Station :=
  if (s.laneAt e.lane).state = .free then .error .laneFree else .ok (s.abortLane e.lane .host)

/-- ABORT (R129). -/
def execAbort (s : State) : Host.Outcome State Fault Refusal :=
  runEvent (Station.takeLaneCommand 12 fun e t => t.decideAbort e) s

/-! ### Reports of the lane unit (R125) -/

/-- The lane whose duty is made ready next: searched from the lane after the one served last (R125). -/
def Station.nextDutyLane (s : Station) : Option LaneNo :=
  ringFind s.lane.next fun l => ((s.laneAt l).duty l).isSome

/-- A lane's first duty made ready (R125). -/
def Station.makeLaneReport (l : LaneNo) (s : Station) : Station :=
  match (s.laneAt l).duty l with
  | some d =>
    let t := s.mapLane l fun _ => d.2
    { t with lane.ready := some d.1, lane.next := l + 1 }
  | none => s

/-- LANE_REPORT_READY (R125): where the lane unit holds no report ready, one lane's first duty is made ready. -/
def execLaneReportReady (s : State) : Host.Outcome State Fault Refusal :=
  runEvent
    (fun t =>
      if t.lane.ready.isSome then t
      else
        match t.nextDutyLane with
        | some l => t.makeLaneReport l
        | none => t)
    s

end Sys2Proof.Machine
end

