-- ==== Sys2Proof/Machine/LeaseClock.lean ====
section
/-! DEFINITION. The lease clock: its advance and the rows of the deadlines that an advance reaches (chapter 9, R53, R73,
R77, R88, R156, R160). -/
namespace Sys2Proof.Machine

/-! ### The advance (R161, R164) -/

/-- An advance of the lease clock: the divider returns to 0, the counter advances by one, and every block tests its
deadlines against the new value. Those found reached stand in `reached`, in no order that a rule gives, until the row of
each acts on it; whatever other command comes next acts on all of them first (assumption 5). -/
def Station.advanceClock (s : Station) : Station :=
  let u := { s with
    clock.now := s.clock.now + 1
    clock.divider := 0
    clock.advances := s.clock.advances + 1
    clock.reached := [] }
  { u with clock.reached := u.deadlinesReached }

/-- LEASE_TICK (R161): while the clock runs, the divider reaches the tick length and the counter advances. -/
def execLeaseTick (s : State) : Host.Outcome State Fault Refusal :=
  runEvent (fun t => if t.clock.running then t.advanceClock else t) s

/-- One period of the reference clock (R161): the divider advances, or returns to 0 with an advance of the counter. -/
def Station.refclkPeriod (s : Station) : Station :=
  if !s.clock.running then s
  else if s.clock.divider + 1 < Config.tickLength s.control.straps.tickTap then
    { s with clock.divider := s.clock.divider + 1 }
  else s.advanceClock

/-- A deadline reached at the present advance is taken off the list of those not yet acted on, and acted on. One that is
not on the list is not reached at this advance, and nothing changes. -/
def Station.takeDeadline (d : Deadline) (act : Station → Station) (s : Station) : Station :=
  if d ∈ s.clock.reached then act { s with clock.reached := s.clock.reached.erase d } else s

/-- LEASE_DEADLINE (R53). -/
def execLeaseDeadline (pos : ClaimPos) (s : State) : Host.Outcome State Fault Refusal :=
  runStation (Station.takeDeadline (.claim pos) (Station.markDue pos)) s

/-- A deadline of an entry, of one sort: an entry that holds a deadline of another sort is not acted on. -/
def Station.takeEntryDeadline (sort : DeadlineSort) (i : EntryIndex) (s : Station) : Station :=
  if (s.entry i).deadlineReached sort s.clock.now then
    s.takeDeadline (.entry i) (Station.expireEntry sort i)
  else s

/-- ANSWER_DEADLINE (R73). -/
def execAnswerDeadline (index : EntryIndex) (s : State) : Host.Outcome State Fault Refusal :=
  runStation (Station.takeEntryDeadline .answer index) s

/-- HOLD_DEADLINE (R77). -/
def execHoldDeadline (index : EntryIndex) (s : State) : Host.Outcome State Fault Refusal :=
  runStation (Station.takeEntryDeadline .hold index) s

/-- ORPHAN_HOLD_DEADLINE (R88). -/
def execOrphanHoldDeadline (index : EntryIndex) (s : State) : Host.Outcome State Fault Refusal :=
  runStation (Station.takeEntryDeadline .orphanHold index) s

/-- SILENCE_DEADLINE (R156). -/
def execSilenceDeadline (peer : BitVec 4) (s : State) : Host.Outcome State Fault Refusal :=
  runStation (Station.takeDeadline (.peer peer) (Station.markSilence peer)) s

/-- BEACON_DUE (R160). -/
def execBeaconDue (s : State) : Host.Outcome State Fault Refusal :=
  runStation (Station.takeDeadline .beacon Station.beaconExpired) s

end Sys2Proof.Machine
end

