-- ==== Sys2Proof/Machine/StationControl.lean ====
section
/-! DEFINITION. Station control: resets and their release, POOL_SET, START, STATS, the scrub's end and the entry to RUNNING
(chapter 11, R4, R28). -/
namespace Sys2Proof.Machine

/-! ### Resets (R32, R33, R183) -/

/-- A bucket write in flight, of an operation or of the scrub, is cut short by a reset (R32, R33). -/
def Station.tearInFlight (s : Station) : Station :=
  match s.index.write with
  | some (b, k) => s.tearWrite b k
  | none =>
    match s.index.scrub with
    | some b => s.tearWrite b emptyBucket
    | none => s

/-- Every block but station control in its reset state; table memory keeps its contents (R31, R61, R95, R133, R151,
R166, R180). -/
def Station.resetBlocks (s : Station) : Station :=
  let t := s.tearInFlight
  { t with
    port := Port.reset
    fetch.burst := none
    lane := LaneUnit.reset
    chunker := Chunker.reset
    exchange := Exchange.reset
    index := IndexUnit.reset t.index.table
    bus := Bus.reset
    roster := Roster.reset
    clock := Clock.reset }

/-- The strap values that the levels of the fifteen pins spell, in the order of Table 11.1. -/
def strapsOf (levels : BitVec 15) : Straps :=
  ⟨levels.extractLsb' 11 4, levels.extractLsb' 7 4, levels.extractLsb' 5 2, levels.extractLsb' 2 3, levels.extractLsb' 0 2⟩

/-- Station control at the assertion of COLD (Table 11.3). Until the release it follows the levels of the strap pins, which
no command carries: they are a free value (R182, assumption 19). -/
def Control.assertCold (c : Control) : Control :=
  { Control.coldReset (strapsOf (Config.strapLevels c.strapReads)) with
    coldPin := true
    warmPin := c.warmPin
    strapReads := c.strapReads + 1 }

/-- Station control at the assertion of WARM alone (Table 11.3). -/
def Control.assertWarm (c : Control) : Control :=
  { c with
    warmPin := true
    state := .config
    counters := Vector.replicate 24 0
    ready := none
    startedOwed := none }

/-- COLD_RESET (R182, R183): every block takes its cold-reset state, and the straps are the levels of their pins. -/
def execColdReset (s : State) : Host.Outcome State Fault Refusal :=
  runEvent (fun t => let u := t.resetBlocks; { u with control := u.control.assertCold }) s

/-- WARM_RESET (R183): WARM alone makes a warm reset; while COLD is asserted the reset stays a cold one. -/
def execWarmReset (s : State) : Host.Outcome State Fault Refusal :=
  runEvent
    (fun t =>
      if t.control.coldPin then { t with control.warmPin := true }
      else
        let u := t.resetBlocks
        { u with control := u.control.assertWarm })
    s

/-- COLD_RELEASE (R182): station control holds the strap values present at the release of an asserted COLD. -/
def execColdRelease (number clusterSize : BitVec 4) (averageChunk : BitVec 2) (tickTap : BitVec 3)
    (lineRate : BitVec 2) (s : State) : Host.Outcome State Fault Refusal :=
  runEvent
    (fun t =>
      if t.control.coldPin then
        { t with
          control.coldPin := false
          control.straps := ⟨number, clusterSize, averageChunk, tickTap, lineRate⟩ }
      else t)
    s

/-- WARM_RELEASE (R183): the pin is released. -/
def execWarmRelease (s : State) : Host.Outcome State Fault Refusal :=
  runEvent (fun t => { t with control.warmPin := false }) s

/-! ### POOL_SET (R4, Table 1.1) -/

/-- The decision on a POOL_SET. -/
def Station.decidePoolSet (e : CmdEntry) (s : Station) : Station :=
  if s.control.state ≠ .config then s.refuse e 0 .badState
  else if s.control.lock then s.refuse e 0 .locked
  else s.setPool e.poolSetBranch e.poolSetPool

/-- POOL_SET (R4). -/
def execPoolSet (s : State) : Host.Outcome State Fault Refusal :=
  runEvent (Station.takeHead 1 fun e t => some (t.decidePoolSet e)) s

/-! ### Entry to RUNNING (R186, R187) -/

/-- STARTED comes to be owed: made ready at once if station control holds no report (R186, R187). -/
def Control.oweStarted (scrubRun : Bool) (c : Control) : Control :=
  match c.ready with
  | none => { c with ready := some (.started scrubRun c.straps.number c.straps.clusterSize) }
  | some _ => { c with startedOwed := some scrubRun }

/-- The station enters RUNNING: the first beacon is due at once, the beacon deadline is now+16, STARTED is owed (R160,
R186). -/
def Station.enterRunning (scrubRun : Bool) (s : Station) : Station :=
  let t := { s with
    control.state := .running
    roster.beaconDeadline := some (s.clock.now + Config.beaconTicks) }.beaconFallsDue
  { t with control := t.control.oweStarted scrubRun }

/-! ### START (R185) -/

/-- The strap check of START (R185): a cluster size of 0, or a station number not below it, is refused. -/
def Straps.valid (x : Straps) : Bool := x.clusterSize != 0 && x.number < x.clusterSize

/-- The one step of a START that is taken (R161, R185). -/
def Station.startTaken (s : Station) : Station :=
  let t := { s with control.lock := true, clock := { Clock.reset with running := true } }
  if s.control.scrubOwed then
    { t with control.scrubOwed := false, control.state := .scrub, index.scrub := some 0 }
  else t.enterRunning false

/-- The decision on a START (R170, R171, R185): BAD_STATE outside CONFIG; in CONFIG it waits while station control holds
a report; then the straps decide. -/
def Station.decideStart (e : CmdEntry) (s : Station) : Option Station :=
  if s.control.state ≠ .config then some (s.refuse e 0 .badState)
  else if s.control.ready.isSome then none
  else if s.control.straps.valid then some s.startTaken
  else some { s with
    control.ready := some (.startRefused s.control.straps.number s.control.straps.clusterSize) }

/-- START (R185). -/
def execStart (s : State) : Host.Outcome State Fault Refusal :=
  runEvent (Station.takeHead 3 Station.decideStart) s

/-! ### STATS (R189) -/

/-- STATS copies the counters as they stand into a STATS report made ready; it waits while station control holds a report
(R170, R187, R189). -/
def Station.decideStats (s : Station) : Option Station :=
  if s.control.ready.isSome then none
  else some { s with control.ready := some (.stats s.control.counters) }

/-- STATS (R189). -/
def execStats (s : State) : Host.Outcome State Fault Refusal :=
  runEvent (Station.takeHead 4 fun _ t => t.decideStats) s

/-! ### The scrub (R28) -/

/-- The write of bucket `b` by the scrub completes: the next write begins, or after the last bucket the scrub ends and
the station enters RUNNING (R28). -/
def Station.scrubDone (b : Nat) (s : Station) : Station :=
  let t := { s with index.table := s.index.table.scrubWrite b }
  if b + 1 < Config.buckets then { t with index.scrub := some (b + 1) }
  else { t with index.scrub := none }.enterRunning true

/-- SCRUB_WRITE_DONE (R28). -/
def execScrubWriteDone (s : State) : Host.Outcome State Fault Refusal :=
  runEvent
    (fun t =>
      match t.index.scrub with
      | some b => if t.control.state = .scrub then t.scrubDone b else t
      | none => t)
    s

end Sys2Proof.Machine
end

