-- ==== Sys2Proof/Machine/Reports.lean ====
section
/-! DEFINITION. The words of reports (Tables 10.6 and 10.7) and the reports of station control and the command unit. -/
namespace Sys2Proof.Machine

/-- The code of an unindexed reason (Table 10.7). -/
def Reason.code : Reason → BitVec 4
  | .waitersFull => 1
  | .claimsFull => 2
  | .bucketFull => 3
  | .poolIsolated => 4
  | .ownerAbsent => 5
  | .ownerRestarted => 6
  | .noAnswer => 7
  | .holdExpired => 8
  | .notIndexed => 9

/-- The code of a recipe kind (Table 10.7). -/
def Kind.code : Kind → BitVec 2
  | .dup => 0
  | .new => 1
  | .unindexed _ => 2
  | .doubt => 3

/-- The reason field of a RECIPE: 0 but for kind UNINDEXED (Table 10.7). -/
def Kind.reasonCode : Kind → BitVec 4
  | .unindexed r => r.code
  | .dup | .new | .doubt => 0

/-- The code of an abort reason (Table 10.7). -/
def AbortReason.code : AbortReason → BitVec 2
  | .host => 0
  | .storeFailed => 1
  | .fetchError => 2

/-- The code of a RELEASED outcome (Table 10.7). -/
def ReleasedOutcome.code : ReleasedOutcome → BitVec 3
  | .reply .pinned => 0
  | .reply .counted => 1
  | .reply .retired => 2
  | .reply .notFound => 3
  | .undelivered => 4
  | .uncertain => 5

/-- The code of a command error (Table 10.4). -/
def CmdErrorCode.code : CmdErrorCode → Byte
  | .unknownCommand => 1
  | .badState => 2
  | .locked => 3
  | .laneBusy => 4
  | .laneFree => 5
  | .laneEnding => 6
  | .queueFull => 7
  | .badLength => 8
  | .badLocator => 9
  | .notStoring => 10

/-- The PEER body word less its station field: event 2..0, cause 16, cluster size heard 27..24 (Table 10.6). -/
def PeerEvent.word : PeerEvent → Word
  | .joined => 0
  | .returned => 1
  | .silent => 2
  | .restarted => 3
  | .conflictOwnNumber => 4
  | .conflictClusterSize heard => 4 ||| fieldAt 16 1#1 ||| fieldAt 24 heard

/-- The body words of the parked record (CLOSED and PARKED, Table 10.6). -/
def ParkedRecord.words (r : ParkedRecord) : List Word :=
  [r.stream, fieldAt 0 r.branch] ++ words48 r.offset ++ [r.nextRecipe, r.nextSegment] ++ words48 r.chunks ++
    words48 r.dupBytes ++ words48 r.newBytes ++ words48 r.unindexedBytes ++ [r.doubtChunks]

/-- The kind code of a report (Table 10.6). -/
def Report.kindCode : Report → Byte
  | .started _ _ _ => 1
  | .startRefused _ _ => 2
  | .opened _ _ _ => 3
  | .store _ _ _ _ _ => 4
  | .recipe _ _ _ _ _ _ _ => 5
  | .segmentDone _ _ => 6
  | .closed _ _ => 7
  | .parked _ _ => 8
  | .aborted _ _ _ _ _ => 9
  | .reclaim _ _ _ => 10
  | .doubt _ _ _ => 11
  | .released _ _ _ => 12
  | .peer _ _ => 13
  | .bucketLost _ => 14
  | .stats _ => 15
  | .cmdError _ _ _ => 16

/-- The lane field of a report's header (Table 10.6). -/
def Report.lane : Report → LaneNo
  | .opened l _ _ | .store l _ _ _ _ | .recipe l _ _ _ _ _ _ | .segmentDone l _ | .closed l _ | .parked l _
  | .aborted l _ _ _ _ | .reclaim l _ _ | .doubt l _ _ | .cmdError l _ _ => l
  | .started _ _ _ | .startRefused _ _ | .released _ _ _ | .peer _ _ | .bucketLost _ | .stats _ => 0

/-- The body words of a report (Table 10.6). -/
def Report.body : Report → List Word
  | .started scrubRun number size => [fieldAt 0 (BitVec.ofBool scrubRun) ||| fieldAt 8 number ||| fieldAt 12 size]
  | .startRefused number size => [fieldAt 8 number ||| fieldAt 12 size]
  | .opened _ r pool =>
    [r.stream, fieldAt 0 r.branch ||| fieldAt 16 pool] ++ words48 r.offset ++ [r.nextRecipe, r.nextSegment]
  | .store _ seq offset length fp => [seq] ++ words48 offset ++ [fieldAt 0 (BitVec.ofNat 17 length)] ++ words128 fp
  | .recipe _ seq offset length fp kind locator =>
    [seq] ++ words48 offset ++
      [fieldAt 0 (BitVec.ofNat 17 length) ||| fieldAt 24 kind.code ||| fieldAt 28 kind.reasonCode] ++
      words128 fp ++ words48 locator
  | .segmentDone _ seq => [seq]
  | .closed _ r => r.words
  | .parked _ r => r.words
  | .aborted _ stream reason lastSeq point => [stream, fieldAt 0 reason.code, lastSeq] ++ words48 point
  | .reclaim _ key locator => [fieldAt 0 key.pool] ++ words128 key.fp ++ words48 locator
  | .doubt _ key locator => [fieldAt 0 key.pool] ++ words128 key.fp ++ words48 locator
  | .released outcome locator cookie => [fieldAt 0 outcome.code ||| fieldAt 16 cookie] ++ words48 locator
  | .peer event station => [event.word ||| fieldAt 8 station]
  | .bucketLost bucket => [fieldAt 0 (BitVec.ofNat 19 bucket)]
  | .stats counters => counters.toList
  | .cmdError _ code error => [fieldAt 0 code ||| fieldAt 8 error.code]

/-- The header word of a report: kind 7..0, lane 12..8, body words 23..16 (R174). -/
def Report.header (r : Report) : Word :=
  fieldAt 0 r.kindCode ||| fieldAt 8 (BitVec.ofNat 5 r.lane.val) ||| fieldAt 16 (BitVec.ofNat 8 r.body.length)

/-- The words of a report: its header and its body (R174). -/
def Report.words (r : Report) : List Word := r.header :: r.body

end Sys2Proof.Machine
end

