-- ==== Sys2Proof/Machine/StreamPort.lean ====
section
/-! DEFINITION. The stream port: host accesses to the window, the commands the command unit decides itself, and the report
arbiter (chapter 10). -/
namespace Sys2Proof.Machine

/-! ### The window (R167 to R169, R175, R178) -/

/-- STAGING_WRITE (R168): the bytes written change; dropped while a reset pin is asserted (R167). -/
def execStagingWrite (index : Fin 16) (bytes : BitVec 4) (value : Word) (s : State) :
    Host.Outcome State Fault Refusal :=
  runEvent
    (fun t =>
      if t.inReset then t
      else { t with port.staging := t.port.staging.set index (mergeBytes bytes t.port.staging[index] value) })
    s

/-- The entry that a header write pushes: the header and copies of staging words 0 to n − 1, all sixteen where n exceeds
16 (R169). -/
def Port.entryOf (header : Word) (p : Port) : CmdEntry :=
  ⟨header, p.staging.toList.take (header.extractLsb' 8 5).toNat⟩

/-- A header write (R169): one entry joins where there is room, else the header is dropped and OVERRUN is set. -/
def Port.pushHeader (header : Word) (p : Port) : Port :=
  if p.fifo.length < Config.commandFifoMax then { p with fifo := p.fifo ++ [p.entryOf header] }
  else { p with overrun := true }

/-- COMMAND_WORD_WRITE (R169): bytes not written are taken as zero (R167); dropped while a reset pin is asserted. -/
def execCommandWordWrite (bytes : BitVec 4) (value : Word) (s : State) : Host.Outcome State Fault Refusal :=
  runEvent
    (fun t => if t.inReset then t else { t with port := t.port.pushHeader (mergeBytes bytes 0 value) }) s

/-- REPORT_WORD_READ (R175): removes and returns the oldest word, or returns 0 and changes nothing when the FIFO is empty.
The bytes asked for are returned (R167); while a reset pin is asserted the read returns 0 and has no effect. -/
def execReportWordRead (bytes : BitVec 4) (s : State) : Host.Outcome State Fault Refusal :=
  runEvent
    (fun t =>
      let data := mergeBytes bytes 0 (t.windowWord 0x80)
      if t.inReset then { t with port.readData := data }
      else { t with port.readData := data, port.reports := t.port.reports.tail })
    s

/-- STATUS_WORD_READ (R178): returns the status fields and clears OVERRUN after its value has been taken. -/
def execStatusWordRead (bytes : BitVec 4) (s : State) : Host.Outcome State Fault Refusal :=
  runEvent
    (fun t =>
      let data := mergeBytes bytes 0 (t.windowWord 0x84)
      if t.inReset then { t with port.readData := data }
      else { t with port.readData := data, port.overrun := false })
    s

/-! ### Commands the command unit decides (R171, R172) -/

/-- UNKNOWN_COMMAND (R171): a head entry that is no command of Table 10.2 is refused whatever the station state. -/
def execUnknownCommand (s : State) : Host.Outcome State Fault Refusal :=
  runEvent
    (fun t =>
      match t.port.fifo with
      | e :: rest =>
        if t.port.cmdReady.isNone && !e.known then { t with port.fifo := rest }.refuse e 0 .unknownCommand else t
      | [] => t)
    s

/-- The decision on a CONFIGURE (R172). -/
def Station.decideConfigure (e : CmdEntry) (s : Station) : Station :=
  if s.control.state ≠ .config then s.refuse e 0 .badState
  else if 1 ≤ e.threshold ∧ e.threshold ≤ Config.reportFifoMax then { s with port.threshold := e.threshold }
  else s.refuse e 0 .badLength

/-- CONFIGURE (R172). -/
def execConfigure (s : State) : Host.Outcome State Fault Refusal :=
  runEvent (Station.takeHead 2 fun e t => some (t.decideConfigure e)) s

/-- Whether a tag request is a host release request. -/
def TagRequest.isHostRelease : TagRequest → Bool
  | .hostRelease _ _ _ _ => true
  | .lookup _ _ _ _ => false

/-- The host release requests waiting in the tag wait queue (R69). -/
def Exchange.hostReleases (x : Exchange) : Nat := x.waitQueue.countP TagRequest.isHostRelease

/-- The decision on a host RELEASE (R12, R69, R170, R172). -/
def Station.decideRelease (e : CmdEntry) (s : Station) : Option Station :=
  if !s.running then some (s.refuse e 0 .badState)
  else if e.releaseLocator = 0 then some (s.refuse e 0 .badLocator)
  else if e.releaseKey.pool = 15 then
    if s.exchange.ready.isSome then none
    else some { s with
      exchange.ready := some (.released (.reply .notFound) e.releaseLocator e.releaseCookie) }
  else if Config.hostReleaseMax ≤ s.exchange.hostReleases then some (s.refuse e 0 .queueFull)
  else
    let owner := ownerOf s.control.straps.clusterSize e.releaseKey.fp
    some { s with
      exchange.waitQueue :=
        s.exchange.waitQueue ++ [.hostRelease e.releaseKey e.releaseLocator e.releaseCookie owner] }

/-- RELEASE (R172). -/
def execRelease (s : State) : Host.Outcome State Fault Refusal :=
  runEvent (Station.takeHead 13 Station.decideRelease) s

/-! ### The report arbiter (R174, R176) -/

/-- The report that a producer holds ready. -/
def Station.readyReport (s : Station) : Producer → Option Report
  | .control => s.control.ready
  | .command => s.port.cmdReady
  | .lane => s.lane.ready
  | .exchange => s.exchange.ready
  | .roster => s.roster.ready
  | .index => s.index.ready

/-- The order in which the arbiter searches after `last` (R176). -/
def Producer.after : Producer → List Producer
  | .control => [.command, .lane, .exchange, .roster, .index, .control]
  | .command => [.lane, .exchange, .roster, .index, .control, .command]
  | .lane => [.exchange, .roster, .index, .control, .command, .lane]
  | .exchange => [.roster, .index, .control, .command, .lane, .exchange]
  | .roster => [.index, .control, .command, .lane, .exchange, .roster]
  | .index => [.control, .command, .lane, .exchange, .roster, .index]

/-- The producer whose report the arbiter appends next: the choice that waits for room, else the first in turn that holds
a report ready (R176). -/
def Station.arbiterTurn (s : Station) : Option Producer :=
  match s.port.arbiterChoice with
  | some p => some p
  | none => s.port.arbiterLast.after.find? fun p => (s.readyReport p).isSome

/-- The exchange unit on being told that a RECIPE was appended: the entry bound to the slot is freed, or closes while it
owes a report (R80, R122). -/
def Station.recipeReported (l : LaneNo) (seq : Word) (s : Station) : Station :=
  match s.boundEntry ⟨l, seq⟩ with
  | some i => s.setEntry i (s.entry i).release
  | none => s

/-- Station control on being told of an append: an owed STARTED becomes ready at once (R187). -/
def Control.reportAppended (c : Control) : Control :=
  match c.startedOwed with
  | some scrubRun =>
    { c with
      ready := some (.started scrubRun c.straps.number c.straps.clusterSize)
      startedOwed := none }
  | none => { c with ready := none }

/-- The producer is told that its report was appended (R174). -/
def Station.tellProducer (p : Producer) (r : Report) (s : Station) : Station :=
  match p with
  | .control => { s with control := s.control.reportAppended }
  | .command => { s with port.cmdReady := none }
  | .lane =>
    let t := { s with lane.ready := none }
    match r with
    | .recipe l seq _ _ _ _ _ => t.recipeReported l seq
    | _ => t
  | .exchange => { s with exchange.ready := none }
  | .roster => { s with roster.ready := none }
  | .index => { s with index.ready := none }

/-- The arbiter's chosen report of producer `p`: appended whole where it fits, else it waits with the choice (R176). -/
def Station.appendReport (p : Producer) (r : Report) (s : Station) : Station :=
  if r.words.length ≤ Config.reportFifoMax - s.port.level then
    { s with
      port.reports := s.port.reports ++ r.words
      port.arbiterLast := p
      port.arbiterChoice := none }.tellProducer p r
  else { s with port.arbiterChoice := some p }

/-- REPORT_APPEND (R176). -/
def execReportAppend (s : State) : Host.Outcome State Fault Refusal :=
  runEvent
    (fun t =>
      match t.arbiterTurn with
      | some p =>
        match t.readyReport p with
        | some r => t.appendReport p r
        | none => t
      | none => t)
    s

end Sys2Proof.Machine
end

