-- ==== Sys2Proof/Machine/Dispatch.lean ====
section
/-! DEFINITION. The meaning of every command: one arm per constructor of Instr. -/
namespace Sys2Proof.Machine

def exec (i : Instr) (s : State) : Host.Outcome State Fault Refusal :=
  match i with
  | .coldReset => Sys2Proof.Machine.execColdReset s
  | .warmReset => Sys2Proof.Machine.execWarmReset s
  | .coldRelease number clusterSize averageChunk tickTap lineRate => Sys2Proof.Machine.execColdRelease number clusterSize averageChunk tickTap lineRate s
  | .stagingWrite index bytes value => Sys2Proof.Machine.execStagingWrite index bytes value s
  | .reportWordRead bytes => Sys2Proof.Machine.execReportWordRead bytes s
  | .statusWordRead bytes => Sys2Proof.Machine.execStatusWordRead bytes s
  | .poolSet => Sys2Proof.Machine.execPoolSet s
  | .configure => Sys2Proof.Machine.execConfigure s
  | .start => Sys2Proof.Machine.execStart s
  | .stats => Sys2Proof.Machine.execStats s
  | .unknownCommand => Sys2Proof.Machine.execUnknownCommand s
  | .openLane => Sys2Proof.Machine.execOpenLane s
  | .segment => Sys2Proof.Machine.execSegment s
  | .stored => Sys2Proof.Machine.execStored s
  | .storeFailed => Sys2Proof.Machine.execStoreFailed s
  | .close => Sys2Proof.Machine.execClose s
  | .suspend => Sys2Proof.Machine.execSuspend s
  | .resume => Sys2Proof.Machine.execResume s
  | .abort => Sys2Proof.Machine.execAbort s
  | .release => Sys2Proof.Machine.execRelease s
  | .leaseTick => Sys2Proof.Machine.execLeaseTick s
  | .leaseDeadline pos => Sys2Proof.Machine.execLeaseDeadline pos s
  | .leaseExpiry => Sys2Proof.Machine.execLeaseExpiry s
  | .ask => Sys2Proof.Machine.execAsk s
  | .commit => Sys2Proof.Machine.execCommit s
  | .drop => Sys2Proof.Machine.execDrop s
  | .releaseItem => Sys2Proof.Machine.execReleaseItem s
  | .peerLost => Sys2Proof.Machine.execPeerLost s
  | .peerRestarted => Sys2Proof.Machine.execPeerRestarted s
  | .bucketWriteDone => Sys2Proof.Machine.execBucketWriteDone s
  | .answerHandOn => Sys2Proof.Machine.execAnswerHandOn s
  | .workQueueAdmit => Sys2Proof.Machine.execWorkQueueAdmit s
  | .scrubWriteDone => Sys2Proof.Machine.execScrubWriteDone s
  | .burstIssue busMaster => Sys2Proof.Machine.execBurstIssue busMaster s
  | .fetchReadCompletion request offset data good => Sys2Proof.Machine.execFetchReadCompletion request offset data good s
  | .fetchTimeout request => Sys2Proof.Machine.execFetchTimeout request s
  | .burstCompletion => Sys2Proof.Machine.execBurstCompletion s
  | .digestStart => Sys2Proof.Machine.execDigestStart s
  | .digestCompletion => Sys2Proof.Machine.execDigestCompletion s
  | .tagGrant => Sys2Proof.Machine.execTagGrant s
  | .requestHandOn path => Sys2Proof.Machine.execRequestHandOn path s
  | .answerDeadline index => Sys2Proof.Machine.execAnswerDeadline index s
  | .holdDeadline index => Sys2Proof.Machine.execHoldDeadline index s
  | .orphanHoldDeadline index => Sys2Proof.Machine.execOrphanHoldDeadline index s
  | .exchangeReportReady => Sys2Proof.Machine.execExchangeReportReady s
  | .laneReportReady => Sys2Proof.Machine.execLaneReportReady s
  | .reportAppend => Sys2Proof.Machine.execReportAppend s
  | .contention idle rivals => Sys2Proof.Machine.execContention idle rivals s
  | .attemptEnd levels acknowledged => Sys2Proof.Machine.execAttemptEnd levels acknowledged s
  | .yieldClear idle => Sys2Proof.Machine.execYieldClear idle s
  | .frameReceived idle cells => Sys2Proof.Machine.execFrameReceived idle cells s
  | .frameAbandoned idle => Sys2Proof.Machine.execFrameAbandoned idle s
  | .inboundDispatch => Sys2Proof.Machine.execInboundDispatch s
  | .silenceDeadline peer => Sys2Proof.Machine.execSilenceDeadline peer s
  | .peerSilent => Sys2Proof.Machine.execPeerSilent s
  | .peerJoin => Sys2Proof.Machine.execPeerJoin s
  | .beaconTaken => Sys2Proof.Machine.execBeaconTaken s
  | .conflictReport => Sys2Proof.Machine.execConflictReport s
  | .beaconDue => Sys2Proof.Machine.execBeaconDue s
  | .commandWordWrite bytes value => Sys2Proof.Machine.execCommandWordWrite bytes value s
  | .warmRelease => Sys2Proof.Machine.execWarmRelease s

end Sys2Proof.Machine
end

