-- ==== Sys2Proof/Safety.lean ====
section
/-! DEFINITION. What counts as a sound station: the bounds and agreements that the manual's rules keep, one predicate for
each kind of state. Each is meant to hold at reset and to be kept by every step. -/
namespace Sys2Proof.Machine

/-- No deadline that the present advance of the lease clock reached waits to be acted on (R164). Every command but the rows
of the deadlines brings the station there first (assumption 5). -/
abbrev Station.DeadlinesActed (s : Station) : Prop := s.clock.reached = []

/-! ### The capacities of queues and FIFOs -/

/-- The queues and FIFOs that refuse, or make their source wait, at a full one are within their capacities: command FIFO,
report FIFO, transmit and inbound queue, index work queue, host releases, segment queues; and the request threshold is
within its range (R38, R69, R113, R138, R148, R169, R172, R175). The recipe windows, the digest FIFO and the lookups of
the tag wait queue are bounded by what stands in them: `Station.SlotsMatched`. -/
structure Station.WithinBounds (s : Station) : Prop where
  commands : s.port.fifo.length ≤ 32
  reports : s.port.level ≤ 1024
  threshold : 1 ≤ s.port.threshold ∧ s.port.threshold ≤ 1024
  transmit : s.bus.tx.length ≤ 48
  inbound : s.bus.inbound.length ≤ 16
  work : s.index.queue.length ≤ 32
  hostReleases : s.exchange.hostReleases ≤ 64
  segments : ∀ l, (s.laneAt l).segments.length ≤ 8

/-! ### Sparse tables -/

/-- The pool table and table memory are in canonical form, so that equal contents are equal data. -/
structure Station.TablesCanonical (s : Station) : Prop where
  pools : cellsCanonical (fun _ => (0 : Pool)) s.control.pools
  table : s.index.table.wf

/-! ### Claims and the shard table (R35 to R37) -/

/-- The places that stand for bucket `b`: those of the write-back in flight, else those in table memory after the damage
check of R22. -/
def Station.placesOf (b : Nat) (s : Station) : Vector Place 8 :=
  match s.index.write with
  | some (a, k) => if a = b then k.places
    else if (s.index.table.read b).wellFormed b then (s.index.table.read b).places else emptyPlaces
  | none => if (s.index.table.read b).wellFormed b then (s.index.table.read b).places else emptyPlaces

/-- The claim table is sound: waiter lists within their bounds (R35), every claim filed under its key's bucket and never
for pool 15 (R7, R9), a key claimed at most once and never both claimed and committed (R36), and the bucket sum of every
bucket at most 8 (R37). -/
structure Station.ClaimsSound (s : Station) : Prop where
  waiters : ∀ (p : ClaimPos) (c : Claim), s.index.claims[p] = some c →
    c.waiters.length ≤ 6 ∧ c.waiters.Nodup ∧ c.writer ∉ c.waiters
  filed : ∀ (p : ClaimPos) (c : Claim), s.index.claims[p] = some c → c.bucket = bucketIndex c.key ∧ c.key.pool ≠ 15
  once : ∀ (p q : ClaimPos) (c d : Claim), s.index.claims[p] = some c → s.index.claims[q] = some d → c.key = d.key → p = q
  apart : ∀ (p : ClaimPos) (c : Claim), s.index.claims[p] = some c → findPlace c.key (s.placesOf c.bucket) = none
  reserve : ∀ b, entryCount (s.placesOf b) + s.claimsOn b ≤ 8

/-! ### Station control and the lease clock (R5, R8, R161, R183, R184) -/

/-- Station control and clock agree with the station state: while a pin is asserted the station is in CONFIG with an empty
command FIFO; out of CONFIG the lock is set, the straps are valid, no scrub is owed and the clock runs; in CONFIG the
clock stands at 0; a scrub write is in flight exactly in SCRUB. -/
structure Station.StartSound (s : Station) : Prop where
  pinned : s.inReset = true → s.control.state = .config ∧ s.port.fifo = []
  started : s.control.state ≠ .config →
    s.control.lock = true ∧ s.control.straps.valid = true ∧ s.control.scrubOwed = false ∧ s.clock.running = true
  idle : s.control.state = .config → s.clock = Clock.reset ∧ s.roster.beaconDeadline = none
  scrubbing : s.control.state = .scrub ↔ s.index.scrub.isSome = true
  divider : s.clock.divider < Config.tickLength s.control.straps.tickTap

/-! ### The roster (R153, R154) -/

/-- The peer table is sound: heard markers stand only on peers not SERVING, silence markers only on SERVING ones (so no
record has both), the own number and the numbers at or above the cluster size have untouched records, and so has every
number while the station is not RUNNING. -/
structure Station.RosterSound (s : Station) : Prop where
  heard : ∀ p, (s.peer p).heard = true → (s.peer p).state ≠ .serving
  silence : ∀ p, (s.peer p).silence = true → (s.peer p).state = .serving
  outside : ∀ p, s.control.straps.clusterSize ≤ p → s.peer p = {}
  own : s.peer s.own = {}
  idle : s.control.state ≠ .running → ∀ p, s.peer p = {}

/-! ### The transmit queue (R138, R139, R144) -/

/-- The class of frames that a producer gives (R138). -/
def TxProducer.gives (p : TxProducer) (c : BitVec 2) : Prop :=
  match p with
  | .index => c = 0
  | .exchange => c = 1 ∨ c = 2
  | .roster => c = 3

/-- The transmit queue is sound: in order of class, every frame from a producer of its class and with a count of at most
three failed attempts, and at most one frame on the line. -/
structure Bus.TransmitSound (b : Bus) : Prop where
  ordered : b.tx.Pairwise fun f g => f.frame.body.cls ≤ g.frame.body.cls
  produced : ∀ f ∈ b.tx, f.producer.gives f.frame.body.cls
  attempts : ∀ f ∈ b.tx, f.attempts ≤ 3
  oneOnLine : (b.tx.filter fun f => f.mark != .waiting).length ≤ 1

/-! ### Outstanding entries (R65, R66) -/

/-- Whether a request kind belongs in an entry's state (Table 4.1, R71, R86, R89). -/
def Entry.requestFits (e : Entry) : RequestKind → Prop
  | .ask => e.state = .asking
  | .commit => e.state = .committing
  | .release => e.state = .releasing
  | .drop => e.closing = true

/-- Whether a deadline sort belongs in an entry's state (Table 4.1, R72, R75, R84). -/
def Entry.deadlineFits (e : Entry) : DeadlineSort → Prop
  | .answer => e.state = .asking ∨ e.state = .committing ∨ e.state = .releasing
  | .hold => e.state = .holding
  | .orphanHold => ∃ o, e.state = .orphan o

/-- An outstanding entry is sound (Tables 4.1 and 4.2): a FREE entry holds nothing but its round; the kind fits the state;
only an entry that serves its slot is bound; requests, deadlines and attempt counts stand where the tables give them; and
a closing entry has its DROP to hand on or its report to make, and nothing else. -/
structure Entry.Sound (e : Entry) : Prop where
  free : e.state = .free → e = { round := e.round }
  kind : e.state ≠ .free → (e.kind = .askExchange ↔ e.state ≠ .releasing)
  bound : e.binding.isSome = true → e.closing = false ∧
    (e.state = .asking ∨ e.state = .holding ∨ e.state = .storing ∨ e.state = .committing ∨ e.state = .resolved)
  request : ∀ k ph, e.request = some (k, ph) → e.requestFits k
  deadline : ∀ d t, e.deadline = some (d, t) → e.deadlineFits d
  attempts : e.state = .asking ∨ e.state = .committing ∨ e.state = .releasing → 1 ≤ e.attempts ∧ e.attempts ≤ 3
  closing : e.closing = true → e.deadline = none ∧
    (e.request = some (.drop, .pending) ∨ e.request = none ∧ e.owed.isSome = true)

/-- Every entry of the outstanding list is sound. -/
def Station.EntriesSound (s : Station) : Prop := ∀ i, (s.entry i).Sound

/-! ### Lanes (R113, R115, R118, R119, R131) -/

/-- Whether a report is the ABORTED of an abort list. -/
def Report.isAborted : Report → Bool
  | .aborted _ _ _ _ _ => true
  | _ => false

/-- A recipe window is in stream order (R115): its slots carry consecutive sequence numbers that end just below the lane's
next one, each slot begins where the one before it ends, the last one ends at the byte offset, and only the last one can
be FILLING. -/
structure Lane.WindowSound (l : Lane) : Prop where
  numbered : ∀ (i : Nat) (x : Slot), l.window[i]? = some x →
    x.seq = l.record.nextRecipe - BitVec.ofNat 32 (l.window.length - i)
  contiguous : ∀ (i : Nat) (x y : Slot), l.window[i]? = some x → l.window[i + 1]? = some y →
    y.offset = x.offset + BitVec.ofNat 48 x.length
  ends : ∀ x, l.window.getLast? = some x → l.record.offset = x.offset + BitVec.ofNat 48 x.length
  fillingLast : ∀ (i : Nat) (x : Slot), l.window[i]? = some x → x.state = .filling → i + 1 = l.window.length

/-- A segment queue is in stream order (R113): its descriptors carry consecutive sequence numbers that end just below the
lane's next one, each ends its length past the one before it, and every length is one that SEGMENT takes. -/
structure Lane.QueueSound (l : Lane) : Prop where
  numbered : ∀ (i : Nat) (d : Descriptor), l.segments[i]? = some d →
    d.seq = l.record.nextSegment - BitVec.ofNat 32 (l.segments.length - i)
  ends : ∀ (i : Nat) (d e : Descriptor), l.segments[i]? = some d → l.segments[i + 1]? = some e →
    e.endOffset = d.endOffset + BitVec.ofNat 48 e.length
  lengths : ∀ d ∈ l.segments, 1 ≤ d.length ∧ d.length ≤ 1048576

/-- A lane is sound: its window and segment queue are in stream order, its abort list is empty or ends with its ABORTED and
stands only on a FREE lane, and OPENED is owed only by a lane that is not FREE. -/
structure Lane.Sound (l : Lane) : Prop where
  window : l.WindowSound
  queue : l.QueueSound
  abortFree : l.abortList ≠ [] → l.state = .free
  abortEnds : ∀ r, l.abortList.getLast? = some r → r.isAborted = true
  opened : l.openedOwed = true → l.state ≠ .free

/-- Every lane is sound. -/
def Station.LanesSound (s : Station) : Prop := ∀ l, (s.laneAt l).Sound

/-! ### Slots, chunks, lookups and entries (R63, R69, R79, R100, R108, R115) -/

/-- Whether a slot is in the state that matches that of the entry bound to it (R75 to R80). -/
def Slot.matches (y : Slot) : EntryState → Prop
  | .asking => y.state = .asking
  | .holding => y.state = .holding
  | .storing => ∃ owed, y.state = .storing none owed
  | .committing => y.state = .committing
  | .resolved => y.state = .resolved .dup ∨ y.state = .resolved .new
  | .free | .releasing | .orphan _ => False

/-- A slot of sequence number `seq` stands in a lane's window in a state. -/
def Station.hasSlot (s : Station) (l : LaneNo) (seq : Word) (state : SlotState) : Prop :=
  ∃ y ∈ (s.laneAt l).window, y.seq = seq ∧ y.state = state

/-- The chunks that wait for the digest engine or are in it and not void: lane and recipe sequence number (R108, R109). -/
def Chunker.inDigest (c : Chunker) : List (LaneNo × Word) :=
  (c.digests.map fun d => (d.lane, d.seq)) ++
    match c.engine with
    | some ⟨d, false⟩ => [(d.lane, d.seq)]
    | some ⟨_, true⟩ | none => []

/-- The lookups of the tag wait queue: lane and recipe sequence number (R69). -/
def Exchange.inLookup (x : Exchange) : List (LaneNo × Word) :=
  x.waitQueue.filterMap fun r => match r with
    | .lookup l seq _ _ => some (l, seq)
    | .hostRelease _ _ _ _ => none

/-- The RECIPE of a slot is ready and not yet appended: the slot has left its window, and the entry bound to it is freed
at the append (R80, R122). -/
def Station.recipeHeld (s : Station) (b : Binding) : Prop :=
  ∃ offset length fp kind locator, s.lane.ready = some (.recipe b.lane b.seq offset length fp kind locator)

/-- Slots agree with what works on them. A window has at most 64 slots (R115), and a FREE lane none (R130). The burst in
flight finds room for its first byte (R100). Each chunk of the digest FIFO and the engine is a DIGESTING slot of its own
(R108), and each lookup a LOOKUP slot of its own (R69). An entry is bound to a slot that no other entry is bound to (R63),
which stands in its lane's window in the matching state, or has left it RESOLVED with its RECIPE not yet appended (R122);
such a RECIPE is of the slot just before the window, and no abort list holds one (R131). -/
structure Station.SlotsMatched (s : Station) : Prop where
  windows : ∀ l, (s.laneAt l).window.length ≤ 64
  free : ∀ l, (s.laneAt l).state = .free → (s.laneAt l).window = []
  room : ∀ b, s.chunker.burst = some b → b.void = false →
    (∃ y ∈ (s.laneAt b.lane).window, y.state = .filling) ∨ (s.laneAt b.lane).window.length < 64
  digests : s.chunker.inDigest.Nodup ∧ ∀ k ∈ s.chunker.inDigest, s.hasSlot k.1 k.2 .digesting
  lookups : s.exchange.inLookup.Nodup ∧ ∀ k ∈ s.exchange.inLookup, s.hasSlot k.1 k.2 .lookup
  bound : ∀ i b, (s.entry i).binding = some b →
    (∃ y ∈ (s.laneAt b.lane).window, y.seq = b.seq ∧ y.matches (s.entry i).state) ∨
      ((s.entry i).state = .resolved ∧ s.recipeHeld b)
  once : ∀ i j b, (s.entry i).binding = some b → (s.entry j).binding = some b → i = j
  held : ∀ b, s.recipeHeld b → (s.laneAt b.lane).abortList ≠ [] ∨
    ((s.laneAt b.lane).state ≠ .free ∧
      b.seq = (s.laneAt b.lane).record.nextRecipe - BitVec.ofNat 32 ((s.laneAt b.lane).window.length + 1))
  aborts : ∀ l, ∀ r ∈ (s.laneAt l).abortList, ∀ lane seq offset length fp kind locator,
    r ≠ .recipe lane seq offset length fp kind locator

/-! ### Bucket writes (R13, R16, R20) -/

/-- A work item names no locator 0 in a COMMIT (R13). -/
def WorkItem.commitsNonzero : WorkItem → Prop
  | .commit _ _ l => l ≠ 0
  | .ask _ _ | .drop _ _ | .release _ _ _ | .peerLost _ | .peerRestarted _ => True

/-- Bucket writes are sound: the write-back in flight is well formed for its bucket, and no COMMIT, in the index work
queue or on its way there, is under locator 0. -/
structure Station.WritesSound (s : Station) : Prop where
  write : ∀ b k, s.index.write = some (b, k) → k.wellFormed b = true
  queued : ∀ item ∈ s.index.queue, item.commitsNonzero
  held : ∀ item, s.roster.held = some item → item.commitsNonzero
  inbound : ∀ f ∈ s.bus.inbound, ∀ k l, f.body = .commit k l → l ≠ 0
  committing : ∀ i, (s.entry i).state = .committing → (s.entry i).locator.getD 0 ≠ 0

/-! ### The scrub (R28, R29) -/

/-- The scrub is sound: outside RUNNING no write-back is in flight and no answer waits, the scrub's bucket is one of the
table's, and every bucket below it has been written empty. -/
structure Station.ScrubSound (s : Station) : Prop where
  quiet : s.control.state ≠ .running → s.index.write = none ∧ s.index.answers = []
  range : ∀ b, s.index.scrub = some b → b < 524288
  written : ∀ b, s.index.scrub = some b → ∀ a, a < b → s.index.table.read a = emptyBucket

end Sys2Proof.Machine
end

