-- ==== Sys2Proof/Certificates/Slice0/Obligations.lean ====
section
/-! DEFINITION. The statements for the provers: what each command does to the station, by the numbered rules of the
manual; what every step keeps; and how a command that does not take its course leaves the station. Effects are written out
in the manual's values; only the free values and the choices that notes/assumptions/ names stand as names. What one command
does is said of stations on which no deadline waits to be acted on (`Station.DeadlinesActed`, assumption 5); how a command
runs where some do is DeadlinesActedOnce. -/

namespace Sys2Proof.Machine

/-! ### Words shared by the statements -/

/-- The command at the front of the queue of commands. -/
def State.front (s : State) : Option Instr := s.pending.head?

/-- The station without the head entry of its command FIFO. -/
def Station.popped (rest : List CmdEntry) (s : Station) : Station := { s with port := { s.port with fifo := rest } }

/-- The head of the command FIFO is `e`, a known entry of command code `code` (R171: the code is one of Table 10.2 and the
argument count is the code's), and the command unit holds no CMD_ERROR (R170). -/
structure Station.HeadIs (s : Station) (code : Nat) (e : CmdEntry) (rest : List CmdEntry) : Prop where
  head : s.port.fifo = e :: rest
  free : s.port.cmdReady = none
  kind : e.header.toNat % 256 = code
  count : commandCount code = some (e.header.toNat / 256 % 32)

/-- The station after a refusal (R170, R173): the entry has left the FIFO, CMD_ERROR is ready with the lane, the command
code as written in the header and the error, and nothing else has changed. -/
def Station.refusedAs (s : Station) (e : CmdEntry) (rest : List CmdEntry) (lane : LaneNo) (error : CmdErrorCode) : Station :=
  { s with port := { s.port with fifo := rest, cmdReady := some (.cmdError lane (e.header.setWidth 8) error) } }

/-- The lane that a lane command names: bits 4..0 of argument word 0 (R112). -/
def CmdEntry.names (e : CmdEntry) (l : LaneNo) : Prop := (e.arg 0).toNat % 32 = l.val

/-- The station with a frame of the highest class at the tail of the transmit queue: the beacon of R160, and the roster's
markers at its queuing. -/
def Station.withBeacon (s : Station) : Station :=
  { s with
    bus := { s.bus with
      tx := s.bus.tx ++
        [⟨⟨s.control.straps.number, 15, 0, .beacon s.roster.fresh s.control.straps.clusterSize⟩, .roster, 0, .waiting⟩] }
    roster := { s.roster with beaconQueued := true, fresh := false } }

/-- The station after a beacon falls due (R160): queued only where none is queued and the transmit queue holds fewer than
48 frames. -/
def Station.afterBeaconDue (s : Station) : Station :=
  if s.roster.beaconQueued = false ∧ s.bus.tx.length < 48 then s.withBeacon else s

/-- The bits of a place that a mixture can hold: each is the old one or the new one (R33). -/
def Place.MixtureOf (old new got : Place) : Prop :=
  ∀ j : Nat, got.bits[j]? = old.bits[j]? ∨ got.bits[j]? = new.bits[j]?

/-- A mixture of old and new contents with the check code of either (R33). Old contents whole and new contents whole are
among the mixtures. -/
def Bucket.MixtureOf (old new got : Bucket) : Prop :=
  (got.code = old.code ∨ got.code = new.code) ∧ ∀ i : Fin 8, Place.MixtureOf old.places[i] new.places[i] got.places[i]

/-- Table memory across a reset (R31, R32, R33): a bucket whose write was in flight is left a mixture, and every other one
as it was. -/
def Station.TableAfterReset (s t : Station) : Prop :=
  (s.index.write = none → s.index.scrub = none → t.index.table = s.index.table) ∧
  (∀ b k, s.index.write = some (b, k) →
    Bucket.MixtureOf (s.index.table.read b) k (t.index.table.read b) ∧
      ∀ a, a ≠ b → t.index.table.read a = s.index.table.read a) ∧
  (∀ b, s.index.write = none → s.index.scrub = some b →
    Bucket.MixtureOf (s.index.table.read b) emptyBucket (t.index.table.read b) ∧
      ∀ a, a ≠ b → t.index.table.read a = s.index.table.read a)

/-- Every block but station control and table memory is at the values that its own rule gives for a reset. -/
structure Station.BlocksReset (s : Station) : Prop where
  staging : ∀ i : Fin 16, s.port.staging[i] = 0
  commands : s.port.fifo = [] ∧ s.port.overrun = false ∧ s.port.cmdReady = none
  reports : s.port.reports = [] ∧ s.port.threshold = 1 ∧ s.port.arbiterLast = .index ∧ s.port.arbiterChoice = none
  fetch : s.fetch.burst = none
  lanes : ∀ l : LaneNo, s.lane.lanes[l] =
    { state := .free
      record := ⟨0, 0, 0, 0, 0, 0, 0, 0, 0, 0⟩
      pool := 0
      segments := []
      window := []
      openedOwed := false
      abortList := [] }
  laneUnit : s.lane.ready = none ∧ s.lane.next = 0
  contexts : ∀ l : LaneNo, s.chunker.contexts[l] = ⟨0, 0, [], []⟩
  chunker : s.chunker.pointer = 0 ∧ s.chunker.burst = none ∧ s.chunker.digests = [] ∧ s.chunker.engine = none
  entries : ∀ i : EntryIndex, s.entry i =
    { round := 0
      state := .free
      kind := .askExchange
      owner := 0
      key := ⟨0, 0⟩
      locator := none
      cookie := none
      binding := none
      request := none
      attempts := 0
      ackedOnce := false
      deadline := none
      owed := none
      closing := false }
  exchange : s.exchange.waitQueue = [] ∧ s.exchange.ready = none ∧ s.exchange.nextSelf = 0 ∧ s.exchange.nextBus = 0 ∧
    s.exchange.nextReport = 0 ∧ s.exchange.offerSelf = none ∧ s.exchange.offerBus = none
  claims : ∀ p : ClaimPos, s.index.claims[p] = none
  records : ∀ p : Fin 15, s.index.records[p] = none
  index : s.index.queue = [] ∧ s.index.admittedLast = .roster ∧ s.index.write = none ∧ s.index.answers = [] ∧
    s.index.ready = none ∧ s.index.scrub = none
  bus : s.bus.tx = [] ∧ s.bus.inbound = [] ∧ s.bus.yield = false ∧ s.bus.txLast = .exchange ∧
    s.bus.indexWaits = false ∧ s.bus.inboundWaits = false
  peers : ∀ p : Fin 15, s.roster.peers[p] = ⟨.absent, 0, false, false, false⟩
  roster : s.roster.ready = none ∧ s.roster.held = none ∧ s.roster.next = 0 ∧ s.roster.conflictOwed = none ∧
    s.roster.conflictFlag = false ∧ s.roster.beaconDeadline = none ∧ s.roster.beaconQueued = false ∧ s.roster.fresh = true
  clock : s.clock.running = false ∧ s.clock.now = 0 ∧ s.clock.divider = 0 ∧ s.clock.reached = []

/-! ### Lanes -/

/-- The station with a lane's record replaced. -/
def Station.withLane (l : LaneNo) (x : Lane) (s : Station) : Station :=
  { s with lane := { s.lane with lanes := s.lane.lanes.set l x } }

/-- The station after the cut of lane `l`'s chunk (R99): an entry of slot `seq` with the length and the digest state of
context `c` joins the digest FIFO, and the lane's context is fresh. -/
def Station.withCut (l : LaneNo) (seq : Word) (c : Context) (s : Station) : Station :=
  { s with chunker := { s.chunker with
      contexts := s.chunker.contexts.set l ⟨0, 0, [], []⟩
      digests := s.chunker.digests ++ [⟨l, seq, c.n, c.absorbed⟩] } }

/-- A slot as a final cut or a cut leaves it. -/
def Slot.cutToDigesting (y : Slot) : Slot := { y with state := .digesting }

/-- The release point of a lane (R124, R131): the offset of the head slot, or the byte offset where no slot stands. -/
def Lane.pointOfRelease (x : Lane) : Offset :=
  match x.window with
  | y :: _ => y.offset
  | [] => x.record.offset

/-- The entry is the lowest-numbered one bound to slot `seq` of lane `l` (R63 lets no more than one be bound). -/
def Station.BoundAt (s : Station) (l : LaneNo) (seq : Word) (i : EntryIndex) : Prop :=
  (s.entry i).binding = some ⟨l, seq⟩ ∧ ∀ j : EntryIndex, j.val < i.val → (s.entry j).binding ≠ some ⟨l, seq⟩

/-- An entry that has become an ORPHAN of an origin (R84). -/
def Entry.orphanOf (origin : Origin) (now : Tick) (e : Entry) : Entry :=
  { e with
    state := .orphan origin
    binding := none
    request := none
    attempts := 0
    ackedOnce := false
    deadline := some (.orphanHold, now + 64) }

/-- An entry that has become a compensation RELEASE for a locator (R85). -/
def Entry.compensationFor (locator : Locator) (e : Entry) : Entry :=
  { e with
    kind := .compensation
    state := .releasing
    locator := some locator
    binding := none
    request := some (.release, .pending)
    attempts := 1
    ackedOnce := false
    deadline := none }

/-- A closing entry that waits only for its DROP to be handed on (R86, R89). -/
def Entry.dropping (e : Entry) : Entry :=
  { e with request := some (.drop, .pending), deadline := none, binding := none, closing := true }

/-- A closing entry that waits only for its report to be made ready (R83). -/
def Entry.owing (r : OwedReport) (e : Entry) : Entry :=
  { e with owed := some r, request := none, deadline := none, binding := none, closing := true }

/-- An entry that a rule frees (R64, R83): FREE with its round kept, or closing with its report while it owes one. -/
def Entry.freedOrOwing (e : Entry) : Entry :=
  match e.owed with
  | none => { round := e.round, state := .free }
  | some r => e.owing r

/-- Table 4.7: an entry bound to a slot of a lane that is aborted. "Never handed on" is a request still PENDING at attempt
1 (R84). -/
def Entry.afterAbort (now : Tick) (e : Entry) : Entry :=
  match e.state, e.request, e.attempts with
  | .asking, some (_, .pending), 1 => { round := e.round, state := .free }
  | .asking, _, _ => e.orphanOf .ask now
  | .holding, _, _ => e.orphanOf .hold now
  | .storing, _, _ => e.dropping
  | .committing, some (_, .pending), 1 => e.owing (.reclaim (e.locator.getD 0))
  | .committing, _, _ => e.orphanOf .abortCommit now
  | .resolved, _, _ => e.compensationFor (e.locator.getD 0)
  | .free, _, _ => e
  | .releasing, _, _ => e
  | .orphan _, _, _ => e

/-- Table 6.8: the report that a slot of an aborted lane leaves in the abort list. -/
def Slot.leavesReport (l : LaneNo) (pool : Pool) (y : Slot) : Option Report :=
  match y.state with
  | .resolved (.unindexed _) => some (.reclaim l ⟨pool, y.fp.getD 0⟩ (y.locator.getD 0))
  | .resolved .doubt => some (.doubt l ⟨pool, y.fp.getD 0⟩ (y.locator.getD 0))
  | .resolved .dup | .resolved .new | .filling | .digesting | .lookup | .asking | .holding | .storing _ _
  | .committing => none

/-- What the abort of lane `l` makes of the station (R89, R105, R110, R130, R131): the lane is FREE with its abort list,
its burst and the chunk in the digest engine are void, its digest entries and lookups are gone, and the entries bound to
its slots are left as Table 4.7 gives. -/
structure Station.LaneAborted (s t : Station) (l : LaneNo) (reason : AbortReason) : Prop where
  lane : t.lane = { s.lane with lanes := s.lane.lanes.set l { s.laneAt l with
    state := .free
    segments := []
    window := []
    openedOwed := false
    abortList := (s.laneAt l).window.filterMap (Slot.leavesReport l (s.laneAt l).pool) ++
      [.aborted l (s.laneAt l).record.stream reason
        (match (s.laneAt l).window with
          | y :: _ => y.seq - 1
          | [] => (s.laneAt l).record.nextRecipe - 1)
        (s.laneAt l).pointOfRelease] } }
  chunker : t.chunker = { s.chunker with
    burst := s.chunker.burst.map fun b => if b.lane = l then ⟨b.lane, b.segment, b.length, true⟩ else b
    digests := s.chunker.digests.filter fun d => decide (d.lane ≠ l)
    engine := s.chunker.engine.map fun j => if j.entry.lane = l then ⟨j.entry, true⟩ else j }
  waitQueue : t.exchange.waitQueue = s.exchange.waitQueue.filter fun r =>
    match r with
    | .lookup k _ _ _ => decide (k ≠ l)
    | .hostRelease _ _ _ _ => true
  bound : ∀ y ∈ (s.laneAt l).window, ∀ i, s.BoundAt l y.seq i → t.entry i = (s.entry i).afterAbort s.clock.now
  unbound : ∀ i, (∀ y ∈ (s.laneAt l).window, (s.entry i).binding ≠ some ⟨l, y.seq⟩) → t.entry i = s.entry i
  exchange : t.exchange =
    { s.exchange with entries := t.exchange.entries, waitQueue := t.exchange.waitQueue }
  rest : t = { s with lane := t.lane, chunker := t.chunker, exchange := t.exchange }

/-- A lane has SEGMENT_DONE to report: the head descriptor's end is at or behind the release point (R124). -/
def Lane.HeadDone (x : Lane) : Prop :=
  ∃ d rest, x.segments = d :: rest ∧ (x.pointOfRelease - d.endOffset).toNat < 2 ^ 47

/-- A lane has a report to make (R125). -/
def Lane.HasDuty (x : Lane) : Prop :=
  x.abortList ≠ [] ∨
  x.state ≠ .free ∧
    (x.openedOwed = true ∨ x.HeadDone ∨ (∃ y ∈ x.window, ∃ u, y.state = .storing u true) ∨
      (∃ y rest k, x.window = y :: rest ∧ y.state = .resolved k) ∨
      (x.window = [] ∧ x.segments = [] ∧ (x.state = .closing ∨ x.state = .suspending)))

/-- The first duty of a lane in the order of R125, and the lane once its report is made ready. -/
inductive Lane.FirstDuty (l : LaneNo) (x : Lane) : Report → Lane → Prop
  /-- The oldest report of the abort list. -/
  | abort (r rest) : x.abortList = r :: rest → FirstDuty l x r { x with abortList := rest }
  /-- OPENED. -/
  | opened : x.abortList = [] → x.state ≠ .free → x.openedOwed = true →
      FirstDuty l x (.opened l x.record x.pool) { x with openedOwed := false }
  /-- SEGMENT_DONE; the descriptor leaves the queue. -/
  | segment (d rest) : x.abortList = [] → x.state ≠ .free → x.openedOwed = false → x.segments = d :: rest →
      x.HeadDone → FirstDuty l x (.segmentDone l d.seq) { x with segments := rest }
  /-- STORE of the first slot that owes it. -/
  | store (a y b u) : x.abortList = [] → x.state ≠ .free → x.openedOwed = false → ¬x.HeadDone →
      x.window = a ++ y :: b → (∀ z ∈ a, ∀ v, z.state ≠ .storing v true) → (∀ z ∈ a ++ b, z.seq ≠ y.seq) →
      y.state = .storing u true →
      FirstDuty l x (.store l y.seq y.offset y.length (y.fp.getD 0))
        { x with window := a ++ { y with state := .storing u false } :: b }
  /-- RECIPE of the head slot; the slot leaves the window and the lane's counters advance (R123). -/
  | recipe (y rest k) : x.abortList = [] → x.state ≠ .free → x.openedOwed = false → ¬x.HeadDone →
      (∀ z ∈ x.window, ∀ v, z.state ≠ .storing v true) → x.window = y :: rest → y.state = .resolved k →
      FirstDuty l x (.recipe l y.seq y.offset y.length (y.fp.getD 0) k (y.locator.getD 0))
        { x with
          window := rest
          record := { x.record with
            chunks := x.record.chunks + 1
            dupBytes := x.record.dupBytes + (if k = .dup then BitVec.ofNat 48 y.length else 0)
            newBytes := x.record.newBytes + (if k = .new ∨ k = .doubt then BitVec.ofNat 48 y.length else 0)
            unindexedBytes := x.record.unindexedBytes +
              (match k with | .unindexed _ => BitVec.ofNat 48 y.length | .dup | .new | .doubt => 0)
            doubtChunks := x.record.doubtChunks + (if k = .doubt then 1 else 0) } }
  /-- CLOSED at the end of the drain; the lane is FREE. -/
  | closed : x.abortList = [] → x.state = .closing → x.openedOwed = false → x.window = [] → x.segments = [] →
      FirstDuty l x (.closed l x.record) { x with state := .free }
  /-- PARKED at the end of the drain; the lane is FREE. -/
  | parked : x.abortList = [] → x.state = .suspending → x.openedOwed = false → x.window = [] → x.segments = [] →
      FirstDuty l x (.parked l x.record) { x with state := .free }

/-! ### Words of reports -/

/-- A word from a number. -/
def word (n : Nat) : Word := BitVec.ofNat 32 n

/-- The header word of a report of a kind, with its lane and the number of its body words (R174). -/
def headerWord (kind lane count : Nat) : Word := word (kind + 256 * lane + 65536 * count)

/-- The low word of a 48-bit value, then its high 16 bits (R181). -/
def lowHigh (x : BitVec 48) : List Word := [word (x.toNat % 2 ^ 32), word (x.toNat / 2 ^ 32)]

/-- A fingerprint in four words, the highest first (R181). -/
def fourWords (x : Fingerprint) : List Word :=
  [word (x.toNat / 2 ^ 96), word (x.toNat / 2 ^ 64 % 2 ^ 32), word (x.toNat / 2 ^ 32 % 2 ^ 32), word (x.toNat % 2 ^ 32)]

/-- The fifteen body words of CLOSED and PARKED (Table 10.6). -/
def recordWords (r : ParkedRecord) : List Word :=
  [r.stream, word r.branch.toNat] ++ lowHigh r.offset ++ [r.nextRecipe, r.nextSegment] ++ lowHigh r.chunks ++
    lowHigh r.dupBytes ++ lowHigh r.newBytes ++ lowHigh r.unindexedBytes ++ [r.doubtChunks]

/-- The place of a producer in the arbiter's order (R176). -/
def Producer.place : Producer → Nat
  | .control => 0
  | .command => 1
  | .lane => 2
  | .exchange => 3
  | .roster => 4
  | .index => 5

/-- How many producers the arbiter passes from the one after `last` to reach `p` (R176). -/
def Producer.distance (last p : Producer) : Nat := (p.place + 5 - last.place) % 6

/-! ### The index unit -/

/-- The index unit takes the head of its queue (R40): RUNNING, no write-back in flight, no answer waiting to be handed on,
no BUCKET_LOST held, no claim due. -/
structure Station.TakesItem (s : Station) (item : WorkItem) (rest : List WorkItem) : Prop where
  state : s.control.state = .running
  write : s.index.write = none
  answers : s.index.answers = []
  ready : s.index.ready = none
  due : ∀ (p : ClaimPos) (c : Claim), s.index.claims[p] = some c → c.due = none
  head : s.index.queue = item :: rest

/-- The claim whose expiry is taken (R40): the index unit may begin, and the claim at `p` is due since the advance `n`, none
since an earlier one, and none at a lower position since the same. -/
structure Station.TakesExpiry (s : Station) (p : ClaimPos) (c : Claim) (n : Nat) : Prop where
  state : s.control.state = .running
  write : s.index.write = none
  answers : s.index.answers = []
  ready : s.index.ready = none
  claim : s.index.claims[p] = some c
  due : c.due = some n
  first : ∀ (p' : ClaimPos) (c' : Claim) (n' : Nat), s.index.claims[p'] = some c' → c'.due = some n' →
    n < n' ∨ n = n' ∧ p.val ≤ p'.val

/-- The index unit after an operation's decision: its queue, the write-back in flight and the answers to hand on. -/
def Station.decided (rest : List WorkItem) (write : Option (Nat × Bucket)) (answers : List Answer) (s : Station) : Station :=
  { s with index := { s.index with queue := rest, write := write, answers := answers } }

/-- A position of the claim table replaced. -/
def Station.withClaim (p : ClaimPos) (c : Option Claim) (s : Station) : Station :=
  { s with index := { s.index with claims := s.index.claims.set p c } }

/-- Bucket `b` is well formed (R16), and these are its places. -/
def Station.Opens (s : Station) (b : Nat) (places : Vector Place 8) : Prop :=
  (s.index.table.read b).wellFormed b = true ∧ (s.index.table.read b).places = places

/-- Place `i` is the lowest one that holds an entry of the key. -/
def HeldAt (key : Key) (places : Vector Place 8) (i : Fin 8) : Prop :=
  (places[i].used = true ∧ places[i].pool = key.pool ∧ places[i].fp = key.fp) ∧
  ∀ j : Fin 8, j.val < i.val → ¬(places[j].used = true ∧ places[j].pool = key.pool ∧ places[j].fp = key.fp)

/-- No place holds an entry of the key. -/
def NotCommitted (key : Key) (places : Vector Place 8) : Prop :=
  ∀ i : Fin 8, ¬(places[i].used = true ∧ places[i].pool = key.pool ∧ places[i].fp = key.fp)

/-- Place `i` is the lowest empty one. -/
def EmptyAt (places : Vector Place 8) (i : Fin 8) : Prop :=
  places[i].used = false ∧ ∀ j : Fin 8, j.val < i.val → places[j].used = true

/-- The claim of the key stands at `p`, at no lower position. -/
def Station.ClaimedAt (s : Station) (key : Key) (p : ClaimPos) (c : Claim) : Prop :=
  s.index.claims[p] = some c ∧ c.key = key ∧
  ∀ (p' : ClaimPos) (c' : Claim), p'.val < p.val → s.index.claims[p'] = some c' → c'.key ≠ key

/-- No claim of the key stands. -/
def Station.NotClaimed (s : Station) (key : Key) : Prop :=
  ∀ (p : ClaimPos) (c : Claim), s.index.claims[p] = some c → c.key ≠ key

/-- Position `p` is the lowest free one of the claim table. -/
def Station.FreeAt (s : Station) (p : ClaimPos) : Prop :=
  s.index.claims[p] = none ∧ ∀ p' : ClaimPos, p'.val < p.val → s.index.claims[p'] ≠ none

/-- The bucket sum of bucket `b` (R37): entries in the places and claims recorded against the bucket. -/
def Station.sumOf (b : Nat) (places : Vector Place 8) (s : Station) : Nat :=
  (places.toList.filter fun x => x.used).length +
    (s.index.claims.toList.filter fun x => match x with
      | some c => decide (c.bucket = b)
      | none => false).length

/-- A bucket write of these places, with their check code (R17, R23). -/
def writeOf (b : Nat) (places : Vector Place 8) : Option (Nat × Bucket) := some (b, ⟨places, crc16 (placesBits places)⟩)

/-- The release of a claim at position `p` (R51): where a waiter stands, the oldest becomes the writer with a new lease of
64 ticks, the due marker is clear, NOTICE WRITE goes to it and a promotion is counted; else the claim is removed. -/
def Station.claimReleased (p : ClaimPos) (c : Claim) (s : Station) : List Answer × Station :=
  match c.waiters with
  | w :: ws =>
    ([⟨w, .notice .write⟩],
      (s.withClaim p (some ⟨c.key, c.bucket, w, s.clock.now + 64, none, ws⟩)).bump .promotions)
  | [] => ([], s.withClaim p none)

/-- A claim under a PEER item for a peer (R58): the peer's pairs leave the waiter list, and a claim that the peer writes is
promoted to the oldest waiter left, or removed where none is. -/
def Claim.withoutPeer (peer : StationNo) (now : Tick) (c : Claim) : Option Claim :=
  let ws := c.waiters.filter fun w => decide (w.station ≠ peer)
  if c.writer.station = peer then
    match ws with
    | w :: rest => some ⟨c.key, c.bucket, w, now + 64, none, rest⟩
    | [] => none
  else some ⟨c.key, c.bucket, c.writer, c.deadline, c.due, ws⟩

/-- The writer a PEER item promotes at a claim, if any. -/
def Claim.promotedBy (peer : StationNo) (c : Claim) : Option Pair :=
  if c.writer.station = peer then (c.waiters.filter fun w => decide (w.station ≠ peer)).head? else none

/-- What a RELEASE of a key under a locator does to the places, and its reply (R19): NOT_FOUND where no entry stands under
that locator, PINNED at a count of 65,535, RETIRED at a count of 1, which empties the place, else COUNTED, one less. -/
inductive ReleaseDecides (key : Key) (locator : Locator) (places : Vector Place 8) :
    Option (Vector Place 8) → ReleaseOutcome → Prop
  | absent : NotCommitted key places → ReleaseDecides key locator places none .notFound
  | other (i) : HeldAt key places i → places[i].locator ≠ locator → ReleaseDecides key locator places none .notFound
  | pinned (i) : HeldAt key places i → places[i].locator = locator → places[i].count = 65535 →
      ReleaseDecides key locator places none .pinned
  | retired (i) : HeldAt key places i → places[i].locator = locator → places[i].count = 1 →
      ReleaseDecides key locator places (some (places.set i ⟨false, 0, 0, 0, 0⟩)) .retired
  | counted (i) : HeldAt key places i → places[i].locator = locator → places[i].count ≠ 65535 → places[i].count ≠ 1 →
      ReleaseDecides key locator places
        (some (places.set i ⟨true, key.pool, key.fp, locator, places[i].count - 1⟩)) .counted

/-- The bucket that the command reads, where it is one that reads a bucket (R21): of the key of the item at the head of the
index work queue, or the one that the claim records. -/
inductive Station.Reads (s : Station) : Instr → Nat → Prop
  | ask (x k rest) : s.TakesItem (.ask x k) rest → s.Reads .ask (bucketIndex k)
  | commit (x k l rest) : s.TakesItem (.commit x k l) rest → s.Reads .commit (bucketIndex k)
  | drop (x k rest) : s.TakesItem (.drop x k) rest → s.Reads .drop (bucketIndex k)
  | release (x k l rest) : s.TakesItem (.release x k l) rest → s.Reads .releaseItem (bucketIndex k)
  | expiry (p c n) : s.TakesExpiry p c n → s.Reads .leaseExpiry c.bucket

/-- The source that the index work queue admits (R39): it waits, and no source that waits comes before it in the order
after the one admitted last. -/
def Source.place : Source → Nat
  | .bus => 0
  | .exchange => 1
  | .roster => 2

/-- How many sources are passed from the one after `last` to reach `src`. -/
def Source.distance (last src : Source) : Nat := (src.place + 2 - last.place) % 3

/-- Fingerprint bits 119..101 as a number (R9). -/
def fp19 (fp : Fingerprint) : Nat := fp.toNat / 2 ^ 101 % 2 ^ 19

/-! ### The exchange unit -/

/-- The tag of an entry: round × 256 + index (R64). -/
def Station.tagOf (s : Station) (i : EntryIndex) : Tag := BitVec.ofNat 12 (256 * (s.entry i).round.toNat + i.val)

/-- The work item of an entry's request of a kind, from the station itself under the entry's tag (R71). -/
def Station.itemOf (s : Station) (i : EntryIndex) (kind : RequestKind) : WorkItem :=
  let x : Pair := ⟨s.control.straps.number, s.tagOf i⟩
  match kind with
  | .ask => .ask x (s.entry i).key
  | .commit => .commit x (s.entry i).key ((s.entry i).locator.getD 0)
  | .drop => .drop x (s.entry i).key
  | .release => .release x (s.entry i).key ((s.entry i).locator.getD 0)

/-- The frame of an entry's request of a kind, to the entry's owner under the entry's tag (R71). -/
def Station.frameOf (s : Station) (i : EntryIndex) (kind : RequestKind) : Frame :=
  ⟨s.control.straps.number, (s.entry i).owner, s.tagOf i,
    match kind with
    | .ask => .ask (s.entry i).key
    | .commit => .commit (s.entry i).key ((s.entry i).locator.getD 0)
    | .drop => .drop (s.entry i).key
    | .release => .release (s.entry i).key ((s.entry i).locator.getD 0)⟩

/-- An entry once its request is handed on (R71, R86): the phase moves on, and a closing entry that owes no report is freed
with its DROP. -/
def Entry.afterHandOn (e : Entry) (kind : RequestKind) (phase : Phase) : Entry :=
  if e.closing = true ∧ kind = .drop ∧ e.owed = none then { round := e.round, state := .free }
  else { e with request := some (kind, phase) }

/-- The exchange unit once the self path has handed entry `i`'s request on (R71). -/
def Station.entryDelivered (s : Station) (i : EntryIndex) (kind : RequestKind) : Station :=
  { s with exchange := { s.exchange with
      entries := s.exchange.entries.set i ((s.entry i).afterHandOn kind .delivered), nextSelf := i + 1, offerSelf := none } }

/-- The word of STATS that counts chunks unindexed for a reason (Table 11.5: words 12 to 20 in reason codes 1 to 9). -/
def Reason.statsWord : Reason → Fin 24
  | .waitersFull => 12
  | .claimsFull => 13
  | .bucketFull => 14
  | .poolIsolated => 15
  | .ownerAbsent => 16
  | .ownerRestarted => 17
  | .noAnswer => 18
  | .holdExpired => 19
  | .notIndexed => 20

/-- A statistics word advanced by one (R188). -/
def Station.counted (k : Fin 24) (s : Station) : Station :=
  { s with control := { s.control with counters := s.control.counters.set k (s.control.counters[k] + 1) } }

/-- The slot that an entry is bound to passes to STORING, unindexed with a reason, its STORE owed, and the reason is counted
(R94, R117). -/
def Station.slotUnindexed (r : Reason) (b : Option Binding) (s : Station) : Station :=
  (s.moveSlot b fun y => { y with state := .storing (some r) true }).counted r.statsWord

/-- An entry that goes on without a request of its own (R67, R72). -/
def Entry.into (state : EntryState) (e : Entry) : Entry :=
  { e with state := state, request := none, attempts := 0, ackedOnce := false, deadline := none }

/-- One attempt of entry `i`'s exchange has failed (R72, R73, R76, R79): below 3 attempts the request is PENDING again with
the count one higher; at 3 an ASK leaves its slot unindexed NO_ANSWER and a COMMIT leaves it RESOLVED DOUBT under the slot's
own locator, the entry an orphan. -/
def Station.exchangeFailed (i : EntryIndex) (s : Station) : Station :=
  let e := s.entry i
  if e.attempts < 3 then
    s.setEntry i { e with
      attempts := e.attempts + 1, request := e.request.map fun r => (r.1, .pending), deadline := none }
  else
    match e.state with
    | .asking => (s.slotUnindexed .noAnswer e.binding).setEntry i (e.orphanOf .ask s.clock.now)
    | .committing =>
      (s.moveSlot e.binding fun y => { y with state := .resolved .doubt, locator := some (e.locator.getD 0) }).setEntry i
        (e.orphanOf .doubtCommit s.clock.now)
    | .free | .holding | .storing | .resolved | .releasing | .orphan _ => s

/-- A RELEASE is given up with an outcome (R81, R82): a host release owes RELEASED with it; a compensation is counted lost
(word 23 of STATS) and freed, or left with the report it owes. -/
def Station.releaseGivenUp (o : ReleasedOutcome) (i : EntryIndex) (s : Station) : Station :=
  let e := s.entry i
  match e.kind with
  | .hostRelease => s.setEntry i (e.owing (.released o))
  | .compensation => (s.counted 23).setEntry i e.freedOrOwing
  | .askExchange => s

/-- The head of the inbound queue is an answer frame, and the index of its tag is entry `i` (R64, R67). -/
structure Station.AnswerHead (s : Station) (f : Frame) (fs : List Frame) (a : AnswerBody) (i : EntryIndex) : Prop where
  head : s.bus.inbound = f :: fs
  body : f.body = .answer a
  index : f.tag.toNat % 256 = i.val

/-- The entry can take an answer of that tag (R67): live, not closing, of the tag's round. -/
def Station.Accepts (s : Station) (f : Frame) (i : EntryIndex) : Prop :=
  (s.entry i).state ≠ .free ∧ (s.entry i).closing = false ∧ (s.entry i).round.toNat = f.tag.toNat / 256

/-- The station without the head of its inbound queue. -/
def Station.inboundTaken (fs : List Frame) (s : Station) : Station := { s with bus := { s.bus with inbound := fs } }

/-- An owner is SERVING (R68, R153): the own number while RUNNING, a peer by its record. -/
def Station.Serves (s : Station) (p : StationNo) : Prop :=
  p = s.control.straps.number ∧ s.control.state = .running ∨
    p ≠ s.control.straps.number ∧ (s.peer p).state = .serving

/-- Entry `i` has a PENDING request that a hand-on path may take (R71): the self path those of entries that the station owns,
the bus path the others, neither one of an entry that owes a report. -/
def Station.PendingOn (s : Station) (path : HandOnPath) (i : EntryIndex) : Prop :=
  (s.entry i).state ≠ .free ∧ (∃ k, (s.entry i).request = some (k, .pending)) ∧ (s.entry i).owed = none ∧
    ((s.entry i).owner = s.control.straps.number ↔ path = .self)

/-- The path's next request is entry `i`'s (R71): the one it has offered to a full queue, while that stands; else the first
from the path's index, wrapping. -/
def Station.HandsOnNext (s : Station) (path : HandOnPath) (i : EntryIndex) : Prop :=
  let offer := match path with
    | .self => s.exchange.offerSelf
    | .bus => s.exchange.offerBus
  let start := match path with
    | .self => s.exchange.nextSelf
    | .bus => s.exchange.nextBus
  let stands (o : Offer) : Prop := s.PendingOn path o.index ∧ (s.entry o.index).round = o.round ∧
    (s.entry o.index).request = some (o.kind, .pending)
  (∃ o, offer = some o ∧ stands o ∧ i = o.index) ∨
  ((∀ o, offer = some o → ¬stands o) ∧ s.PendingOn path i ∧
    ∀ j : EntryIndex, (j - start).val < (i - start).val → ¬s.PendingOn path j)

/-- A deadline taken off the list of those reached and not yet acted on. -/
def Station.deadlineTaken (d : Deadline) (s : Station) : Station :=
  { s with clock := { s.clock with reached := s.clock.reached.erase d } }

/-- A reached deadline of a sort stands in entry `i`, and is among those not yet acted on (R163, R164). -/
def Station.EntryDue (s : Station) (sort : DeadlineSort) (i : EntryIndex) : Prop :=
  Deadline.entry i ∈ s.clock.reached ∧
    ∃ d, (s.entry i).deadline = some (sort, d) ∧ (s.clock.now - d).toNat < 32768

/-- The rows of the opcode table that act on a deadline: for an entry, the three sorts that it can hold. -/
inductive Deadline.Row : Deadline → Instr → Prop
  | claim (p : ClaimPos) : Row (.claim p) (.leaseDeadline p)
  | answer (i : EntryIndex) : Row (.entry i) (.answerDeadline i)
  | hold (i : EntryIndex) : Row (.entry i) (.holdDeadline i)
  | orphanHold (i : EntryIndex) : Row (.entry i) (.orphanHoldDeadline i)
  | peer (p : StationNo) : Row (.peer p) (.silenceDeadline p)
  | beacon : Row .beacon .beaconDue

/-- Table 4.8: an entry toward a lost owner, as the cleanup leaves it. -/
def Entry.afterLoss (e : Entry) : Entry :=
  if e.closing = true then e.freedOrOwing
  else
    match e.state, e.kind with
    | .asking, _ | .holding, _ | .committing, _ => e.freedOrOwing
    | .releasing, .hostRelease => e.owing (.released (if e.ackedOnce then .uncertain else .undelivered))
    | .releasing, .compensation => e.freedOrOwing
    | .orphan .abortCommit, _ => e.owing (.doubt (e.locator.getD 0))
    | .orphan .ask, _ | .orphan .hold, _ | .orphan .doubtCommit, _ => e.freedOrOwing
    | .releasing, .askExchange => e
    | .free, _ | .storing, _ | .resolved, _ => e

/-- Table 4.9: an entry toward a restarted owner, as the cleanup leaves it. A COMMIT or RELEASE that is SENT has failed. -/
def Entry.afterRestart (now : Tick) (e : Entry) : Entry :=
  if e.closing = true then e.freedOrOwing
  else
    match e.state, e.request, e.kind with
    | .asking, _, _ | .holding, _, _ => e.freedOrOwing
    | .committing, some (.commit, .sent), _ =>
      if e.attempts < 3 then
        { e with attempts := e.attempts + 1, request := some (.commit, .pending), deadline := none }
      else e.orphanOf .doubtCommit now
    | .releasing, some (.release, .sent), .hostRelease => e.owing (.released .undelivered)
    | .releasing, some (.release, .sent), .compensation => e.freedOrOwing
    | .orphan .abortCommit, _, _ => e.owing (.doubt (e.locator.getD 0))
    | .orphan .ask, _, _ | .orphan .hold, _, _ | .orphan .doubtCommit, _, _ => e.freedOrOwing
    | .committing, _, _ | .releasing, _, _ | .free, _, _ | .storing, _, _ | .resolved, _, _ => e

/-! ### The index bus and the roster -/

/-- The precedence value of a frame (R136): class × 16 + sender. -/
def Frame.value (f : Frame) : Nat := 16 * f.body.cls.toNat + f.sender.toNat

/-- A frame that R137 takes as well formed: BEACON and destination 15 go together, no locator is 0, no cluster size is 0. -/
def Frame.Proper (f : Frame) : Prop :=
  match f.body with
  | .beacon _ size => f.dest = 15 ∧ size ≠ 0
  | .commit _ l | .release _ l => f.dest ≠ 15 ∧ l ≠ 0
  | .answer (.verdict (.known l)) | .answer (.notice (.known l)) | .answer (.commitReply (.superseded l)) =>
    f.dest ≠ 15 ∧ l ≠ 0
  | .answer (.verdict .write) | .answer (.verdict .hold) | .answer (.verdict (.noindex _)) | .answer (.notice .write)
  | .answer (.commitReply .indexed) | .answer (.commitReply .notIndexed) | .answer (.releaseReply _) | .drop _ | .ask _ =>
    f.dest ≠ 15

/-- A number in `w` cells, most significant first; true is a 1 (R136). -/
def cellsOf (w n : Nat) : List Bool := (List.range w).map fun i => n.testBit (w - 1 - i)

/-- The code, reason, locator or outcome cells of an answer (Table 7.3), with its type code (Table 7.2). -/
def AnswerBody.onLine : AnswerBody → Nat × List Bool
  | .verdict (.known l) => (0, cellsOf 6 0 ++ cellsOf 48 l.toNat)
  | .verdict .write => (0, cellsOf 6 16)
  | .verdict .hold => (0, cellsOf 6 32)
  | .verdict (.noindex .waitersFull) => (0, cellsOf 6 49)
  | .verdict (.noindex .claimsFull) => (0, cellsOf 6 50)
  | .verdict (.noindex .bucketFull) => (0, cellsOf 6 51)
  | .verdict (.noindex .poolIsolated) => (0, cellsOf 6 52)
  | .notice (.known l) => (1, cellsOf 2 0 ++ cellsOf 48 l.toNat)
  | .notice .write => (1, cellsOf 2 1)
  | .commitReply .indexed => (2, cellsOf 2 0)
  | .commitReply (.superseded l) => (2, cellsOf 2 1 ++ cellsOf 48 l.toNat)
  | .commitReply .notIndexed => (2, cellsOf 2 2)
  | .releaseReply .pinned => (3, cellsOf 2 0)
  | .releaseReply .counted => (3, cellsOf 2 1)
  | .releaseReply .retired => (3, cellsOf 2 2)
  | .releaseReply .notFound => (3, cellsOf 2 3)

/-- The type code and body cells of a frame (Tables 7.2 and 7.3). -/
def FrameBody.onLine : FrameBody → Nat × List Bool
  | .answer a => a.onLine
  | .commit k l => (4, cellsOf 4 k.pool.toNat ++ cellsOf 128 k.fp.toNat ++ cellsOf 48 l.toNat)
  | .drop k => (5, cellsOf 4 k.pool.toNat ++ cellsOf 128 k.fp.toNat)
  | .release k l => (6, cellsOf 4 k.pool.toNat ++ cellsOf 128 k.fp.toNat ++ cellsOf 48 l.toNat)
  | .ask k => (7, cellsOf 4 k.pool.toNat ++ cellsOf 128 k.fp.toNat)
  | .beacon fresh size => (8, fresh :: cellsOf 4 size.toNat)

/-- The type code of a request. -/
def RequestKind.typeCode : RequestKind → Nat
  | .commit => 4
  | .drop => 5
  | .release => 6
  | .ask => 7

/-- The station once the producer of a frame that left the transmit queue is told its outcome (R144). The index unit does
nothing (R44). The roster's beacon is queued no more, and a failed one that carried the fresh marker sets it again (R160).
The exchange unit takes it where the frame's tag names a live entry of its round whose request of that type is SENT (R72):
acknowledged, the request is ACKED and an ASK in ASKING, COMMIT in COMMITTING or RELEASE in RELEASING arms the answer
deadline now + 6; failed, an ASK or COMMIT has one failed attempt more and a RELEASE is given up UNDELIVERED. -/
def Station.outcomeTold (x : TxFrame) (ok : Bool) (s : Station) : Station :=
  match x.producer with
  | .index => s
  | .roster =>
    { s with roster := { s.roster with
        beaconQueued := false
        fresh := match x.frame.body, ok with
          | .beacon true _, false => true
          | _, _ => s.roster.fresh } }
  | .exchange =>
    let i : EntryIndex := Fin.ofNat 256 x.frame.tag.toNat
    let e := s.entry i
    match e.request with
    | some (kind, .sent) =>
      if e.state ≠ .free ∧ e.round.toNat = x.frame.tag.toNat / 256 ∧ x.frame.body.onLine.1 = kind.typeCode then
        match ok, kind with
        | true, _ => s.setEntry i { e with
            request := some (kind, .acked)
            ackedOnce := true
            deadline := match kind, e.state with
              | .ask, .asking | .commit, .committing | .release, .releasing => some (.answer, s.clock.now + 6)
              | _, _ => e.deadline }
        | false, .ask | false, .commit => s.exchangeFailed i
        | false, .release => s.releaseGivenUp .undelivered i
        | false, .drop => s
      else s
    | _ => s

/-- A sign of life from a peer (R155): last-heard is now, the silence marker clear, and the heard marker set unless the peer
is SERVING. -/
def Station.heardFrom (p : StationNo) (s : Station) : Station :=
  s.setPeer p { s.peer p with
    lastHeard := s.clock.now
    silence := false
    heard := (s.peer p).heard || decide ((s.peer p).state ≠ .serving) }

/-- A conflict comes to be owed (R159): unless one is owed or the conflict flag is set. -/
def Station.conflictFound (c : OwedConflict) (s : Station) : Station :=
  { s with roster := { s.roster with
      conflictOwed := if s.roster.conflictFlag = true then s.roster.conflictOwed
        else some (s.roster.conflictOwed.getD c) } }

/-- The roster takes the change of peer `p` (R154): no PEER report held, no PEER item held, no conflict report owed, and `p`
the first record with a heard or silence marker from the position at which the search begins, wrapping. -/
structure Station.TakesChange (s : Station) (n : Fin 15) : Prop where
  ready : s.roster.ready = none
  held : s.roster.held = none
  conflict : s.roster.conflictOwed = none
  marked : s.roster.peers[n].heard = true ∨ s.roster.peers[n].silence = true
  first : ∀ m : Fin 15, (m - s.roster.next).val < (n - s.roster.next).val →
    s.roster.peers[m].heard = false ∧ s.roster.peers[m].silence = false

/-- The head of the inbound queue is a beacon that the roster takes now (R154, R157): nothing held or owed, no change due. -/
structure Station.TakesBeacon (s : Station) (f : Frame) (fs : List Frame) (fresh : Bool) (size : BitVec 4) : Prop where
  ready : s.roster.ready = none
  held : s.roster.held = none
  conflict : s.roster.conflictOwed = none
  unmarked : ∀ n : Fin 15, s.roster.peers[n].heard = false ∧ s.roster.peers[n].silence = false
  head : s.bus.inbound = f :: fs
  body : f.body = .beacon fresh size

/-- An entry that a cleanup toward `p` acts on. -/
def Station.CleansEntry (s : Station) (p : StationNo) (i : EntryIndex) : Prop :=
  (s.entry i).state ≠ .free ∧ (s.entry i).owner = p

/-- What a cleanup makes of the slot that an entry is bound to (Tables 4.8 and 4.9), if anything. -/
def Entry.cleansSlot (restarted : Bool) (e : Entry) (y : Slot) : Option Slot :=
  if e.closing = true then none
  else
    match e.state with
    | .asking | .holding =>
      some { y with state := .storing (some (if restarted then .ownerRestarted else .ownerAbsent)) true }
    | .committing =>
      if restarted = false ∨ e.request = some (.commit, .sent) ∧ 3 ≤ e.attempts then
        some { y with state := .resolved .doubt, locator := some (e.locator.getD 0) }
      else none
    | .free | .storing | .resolved | .releasing | .orphan _ => none

/-- The statistics word that the cleanup of an entry advances (Tables 4.8 and 4.9), if any. -/
def Entry.cleanCounts (restarted : Bool) (e : Entry) : Option (Fin 24) :=
  if e.closing = true then none
  else
    match e.state, e.kind with
    | .asking, _ | .holding, _ => some (if restarted then 17 else 16)
    | .releasing, .compensation => if restarted = false ∨ e.request = some (.release, .sent) then some 23 else none
    | .releasing, .askExchange | .releasing, .hostRelease => none
    | .free, _ | .storing, _ | .committing, _ | .resolved, _ | .orphan _, _ => none

/-- The orders of a loss or a restart of peer `p` (R91, R92, R149, R150, R156, R158): every entry toward `p` is left as
Table 4.8 or 4.9 gives, with its slot and its count; every frame to `p` leaves the transmit queue but for one on the line,
which is marked; the PEER item joins the index work queue where that has a place and no other source waits, and is held
otherwise. -/
structure Station.PeerCleaned (s t : Station) (restarted : Bool) (p : StationNo) : Prop where
  entries : ∀ i, t.entry i = if (s.entry i).state ≠ .free ∧ (s.entry i).owner = p then
    (if restarted then (s.entry i).afterRestart s.clock.now else (s.entry i).afterLoss) else s.entry i
  lanes : ∀ l, t.laneAt l = { s.laneAt l with window := (t.laneAt l).window } ∧
    (t.laneAt l).window.length = (s.laneAt l).window.length
  slots : ∀ (l : LaneNo) (k : Nat) (y : Slot), (s.laneAt l).window[k]? = some y →
    ((∀ i, s.CleansEntry p i → (s.entry i).binding ≠ some ⟨l, y.seq⟩) → (t.laneAt l).window[k]? = some y) ∧
    (∀ i, s.CleansEntry p i → (s.entry i).binding = some ⟨l, y.seq⟩ →
      (∀ j, s.CleansEntry p j → (s.entry j).binding = some ⟨l, y.seq⟩ → j = i) →
      (t.laneAt l).window[k]? = some (((s.entry i).cleansSlot restarted y).getD y))
  counters : ∀ k : Fin 24, t.control.counters[k] = s.control.counters[k] + BitVec.ofNat 32
    ((List.finRange 256).filter fun i => decide ((s.entry i).state ≠ .free) && decide ((s.entry i).owner = p) &&
      decide ((s.entry i).cleanCounts restarted = some k)).length
  transmit : t.bus.tx = s.bus.tx.filterMap fun x =>
    if x.frame.dest ≠ p then some x
    else match x.mark with
      | .waiting => none
      | .onLine | .onLinePurged => some { x with mark := .onLinePurged }
  item :
    let item : WorkItem := if restarted then .peerRestarted p else .peerLost p
    if s.index.queue.length < 32 ∧ s.bus.inboundWaits = false ∧ s.roster.held = none ∧ t.pathWaits .self = false then
      t.index.queue = s.index.queue ++ [item] ∧ t.roster = s.roster
    else t.index.queue = s.index.queue ∧ t.roster = { s.roster with held := some item }
  rest : t = { s with
    lane := { s.lane with lanes := t.lane.lanes }
    exchange := { s.exchange with entries := t.exchange.entries }
    control := { s.control with counters := t.control.counters }
    bus := { s.bus with tx := t.bus.tx }
    index := { s.index with queue := t.index.queue }
    roster := t.roster }

/-! ### The chunker -/

/-- One byte into a chunking context (R98). -/
def Context.after (c : Context) (b : Byte) : Context :=
  let out : Nat := if c.history.length = 48 then (c.history.headD 0).toNat else 0
  { hash := BitVec.ofInt 32 (c.hash.toNat * 15133 + b.toNat - out * 15133 ^ 48 : Int)
    n := c.n + 1
    history := c.history.drop (if c.history.length = 48 then 1 else 0) ++ [b]
    absorbed := b :: c.absorbed }

/-- A cut falls after the last byte of a context (R99), with A = 2,048 × 2^k the average chunk size. -/
def Context.CutFalls (k : BitVec 2) (c : Context) : Prop :=
  (2048 * 2 ^ k.toNat / 4 ≤ c.n ∧ c.hash.toNat % (2048 * 2 ^ k.toNat) = 0) ∨ c.n = 4 * (2048 * 2 ^ k.toNat)

/-- A lane that may have a burst (R100): not FREE, with `d` the oldest descriptor that has bytes left, and room for the next
byte in its window. -/
def Lane.MayFetch (x : Lane) (d : Descriptor) : Prop :=
  x.state ≠ .free ∧ (∃ a b, x.segments = a ++ d :: b ∧ (∀ z ∈ a, z.length ≤ z.consumed) ∧ d.consumed < d.length) ∧
    ((∃ y ∈ x.window, y.state = .filling) ∨ x.window.length < 64)

/-- The memory read requests of a burst from an address (R179): consecutive in address order from byte `offset` of the burst,
each of 1 to 512 bytes and none across a 4 KiB boundary, together all its bytes; none of them has any data. -/
inductive SplitFor : Nat → BitVec 64 → Nat → Nat → List FetchRequest → Prop
  | done (id address offset) : SplitFor id address offset 0 []
  | next (id address offset n k rs) : 1 ≤ k → k ≤ 512 → k ≤ n → address.toNat % 4096 + k ≤ 4096 →
      SplitFor (id + 1) (address + BitVec.ofNat 64 k) (offset + k) (n - k) rs →
      SplitFor id address offset n (⟨id, address, offset, List.replicate k none, none⟩ :: rs)

/-- A lane once `n` bytes of segment `seq` have been consumed for it (R103): they lengthen its FILLING slot, opened at the
byte offset under the next recipe sequence number where it had none, and advance the descriptor's count and the byte offset.
`y` is the FILLING slot as it then stands, at the window's end behind `w`. -/
inductive Lane.Consumes (x : Lane) (seq : Word) (n : Nat) : List Slot → Slot → Lane → Prop
  | grows (w z a d b) : x.window = w ++ [z] → (∀ v ∈ w, v.state ≠ .filling) → z.state = .filling →
      x.segments = a ++ d :: b → d.seq = seq → (∀ v ∈ a ++ b, v.seq ≠ seq) →
      Consumes x seq n w { z with length := z.length + n }
        { x with
          window := w ++ [{ z with length := z.length + n }]
          segments := a ++ { d with consumed := d.consumed + n } :: b
          record := { x.record with offset := x.record.offset + BitVec.ofNat 48 n } }
  | opens (a d b) : (∀ v ∈ x.window, v.state ≠ .filling) →
      x.segments = a ++ d :: b → d.seq = seq → (∀ v ∈ a ++ b, v.seq ≠ seq) →
      Consumes x seq n x.window ⟨x.record.nextRecipe, x.record.offset, n, none, none, .filling⟩
        { x with
          window := x.window ++ [⟨x.record.nextRecipe, x.record.offset, n, none, none, .filling⟩]
          segments := a ++ { d with consumed := d.consumed + n } :: b
          record := { x.record with
            offset := x.record.offset + BitVec.ofNat 48 n, nextRecipe := x.record.nextRecipe + 1 } }

/-- The station with the burst in flight taken away. -/
def Station.burstTaken (s : Station) : Station :=
  { s with fetch := { s.fetch with burst := none }, chunker := { s.chunker with burst := none } }

end Sys2Proof.Machine

section Statements
open Sys2Proof Sys2Proof.Machine

/-! ## The machine -/

/-- A step takes the command at the front of the queue and runs it on the rest of the queue; every command answers a next
state and leaves the queue as it was. All of it is the model's choice: the queue of commands (assumption 21), that each row
of the opcode table is one whole step (assumption 25), and that a command whose event does not arise answers a next state
too (assumption 6). The manual says what each event does, and nothing of a queue of them. -/
def Obligations.StepTakesFrontCommand : Prop :=
  ∀ (c : Instr) (s : Station) (q : List Instr),
    step ⟨s, c :: q⟩ = exec c ⟨s, q⟩ ∧ ∃ t : Station, exec c ⟨s, q⟩ = .next ⟨t, q⟩

/-- R161, R162, with the model's choice of assumption 4 that a step on an empty queue is one period of the reference clock:
the divider advances while the clock runs, up to one less than 2^(10+2k); the period that would bring it there is an
advance, the same as a LEASE_TICK. A stopped clock stands.

LEASE_TICK (R161, R163, R164, R53, R156, R160): the counter advances by one, the divider returns to 0, and the deadlines
found reached at the new value are exactly those of R163's test: of claims whose due marker is clear, of live entries, of
SERVING peers whose silence marker is clear (last-heard plus 48), and of the beacon. That they stand on a list until each
is acted on, by its own row or before the next other command, is the model's choice (assumption 5; DeadlinesActedOnce). -/
def Obligations.LeaseClockAdvances : Prop :=
  (∀ s : Station, s.DeadlinesActed →
      (s.clock.running = false → step ⟨s, []⟩ = .next ⟨s, []⟩ ∧ ∀ q, exec .leaseTick ⟨s, q⟩ = .next ⟨s, q⟩) ∧
      (s.clock.running = true → s.clock.divider + 1 < 2 ^ (10 + 2 * s.control.straps.tickTap.toNat) →
        step ⟨s, []⟩ = .next ⟨{ s with clock := { s.clock with divider := s.clock.divider + 1 } }, []⟩) ∧
      (s.clock.running = true → 2 ^ (10 + 2 * s.control.straps.tickTap.toNat) ≤ s.clock.divider + 1 →
        step ⟨s, []⟩ = exec .leaseTick ⟨s, []⟩)) ∧
  (∀ (s : Station) (q : List Instr), s.DeadlinesActed → s.clock.running = true → ∃ ds : List Deadline,
      exec .leaseTick ⟨s, q⟩ = .next ⟨{ s with clock :=
        { s.clock with now := s.clock.now + 1, divider := 0, advances := s.clock.advances + 1, reached := ds } }, q⟩ ∧
      ds.Nodup ∧
      (∀ p : ClaimPos, Deadline.claim p ∈ ds ↔
        ∃ c, s.index.claims[p] = some c ∧ c.due = none ∧ (s.clock.now + 1 - c.deadline).toNat < 32768) ∧
      (∀ i : EntryIndex, Deadline.entry i ∈ ds ↔
        (s.entry i).state ≠ .free ∧ ∃ k d, (s.entry i).deadline = some (k, d) ∧ (s.clock.now + 1 - d).toNat < 32768) ∧
      (∀ p : StationNo, Deadline.peer p ∈ ds ↔
        (s.peer p).state = .serving ∧ (s.peer p).silence = false ∧
          (s.clock.now + 1 - ((s.peer p).lastHeard + 48)).toNat < 32768) ∧
      (Deadline.beacon ∈ ds ↔ ∃ d, s.roster.beaconDeadline = some d ∧ (s.clock.now + 1 - d).toNat < 32768))

/-! ## What every step keeps -/

/-- The state after reset is sound in every one of the senses that the statements below keep, and no command waits. -/
def Obligations.ResetStateIsSound : Prop :=
  State.reset.pending = [] ∧ Station.reset.WithinBounds ∧ Station.reset.TablesCanonical ∧ Station.reset.ClaimsSound ∧
    Station.reset.StartSound ∧ Station.reset.RosterSound ∧ Station.reset.bus.TransmitSound ∧ Station.reset.EntriesSound ∧
    Station.reset.LanesSound ∧ Station.reset.ScrubSound ∧ Station.reset.SlotsMatched ∧ Station.reset.WritesSound ∧
    Station.reset.DeadlinesActed

/-- The queues that refuse or hold back what finds them full never exceed their capacities: command FIFO 32 (R169), report
FIFO 1,024 words (R175), transmit queue 48 (R138), inbound queue 16 (R148), index work queue 32 (R38), host releases
waiting for a tag 64 (R69), each segment queue 8 (R113); the request threshold stays from 1 to 1,024 (R172); and the pool
table and table memory stay in canonical form. Recipe windows, the digest FIFO and the lookups of the tag wait queue have
their bounds in SlotsStayMatchedAndBounded. -/
def Obligations.QueuesAndTablesStayInBounds : Prop :=
  ∀ s t : State, step s = .next t →
    (s.station.WithinBounds → t.station.WithinBounds) ∧ (s.station.TablesCanonical → t.station.TablesCanonical)

/-- Waiter lists stay within their bounds, every claim stays filed under its own key's bucket and outside pool 15, no key is
ever claimed twice or claimed and committed at once, and the bucket sum of every bucket stays at most 8 (R35, R36, R37). -/
def Obligations.ClaimsAndEntriesStayApart : Prop :=
  ∀ s t : State, s.station.ClaimsSound → step s = .next t → t.station.ClaimsSound

/-- Station state, lock, straps, scrub-owed marker, lease clock and scrub stay in agreement (R5, R8, R161, R183, R184). -/
def Obligations.StartUpStaysInAgreement : Prop :=
  ∀ s t : State, s.station.StartSound → step s = .next t → t.station.StartSound

/-- Heard markers stand only on peers not SERVING and silence markers only on SERVING ones, and the own number and the
numbers at or above the cluster size never have a record touched (R153, R154). -/
def Obligations.PeerTableStaysSound : Prop :=
  ∀ s t : State, s.station.StartSound → s.station.RosterSound → step s = .next t → t.station.RosterSound

/-- The transmit queue stays in order of class, every frame from a producer of its class, attempt counts 0 to 3, and at most
one frame on the line (R138, R139, R144). -/
def Obligations.TransmitQueueStaysInOrder : Prop :=
  ∀ s t : State, s.station.bus.TransmitSound → step s = .next t → t.station.bus.TransmitSound

/-- Every outstanding entry keeps to Tables 4.1 and 4.2 (R63, R65, R66): a FREE entry holds nothing but its round, kind fits
state, requests and deadlines stand where the tables give them, attempt counts are 1 to 3. -/
def Obligations.OutstandingEntriesStaySound : Prop :=
  ∀ s t : State, s.station.EntriesSound → step s = .next t → t.station.EntriesSound

/-- Every recipe window and segment queue stays in stream order, with consecutive sequence numbers and offsets that join up,
and the only FILLING slot last; an abort list stands only on a FREE lane and ends with its ABORTED (R113, R115, R131). -/
def Obligations.LanesStayInStreamOrder : Prop :=
  ∀ s t : State, s.station.LanesSound → step s = .next t → t.station.LanesSound

/-- Each lane slot is bound to at most one entry, and the slot of a bound entry stands in its lane's window in the state
that matches the entry's, or has left it as a RECIPE not yet appended (R63, R122); each chunk of the digest FIFO and the
engine is a DIGESTING slot of its own (R108), each lookup of the tag wait queue a LOOKUP slot of its own (R69). So a
recipe window never holds more than 64 slots (R115), the digest FIFO with the chunk in the engine 2,048 entries (R108),
the tag wait queue 2,048 lookups and, with its host releases within bounds, 2,112 requests (R69). -/
def Obligations.SlotsStayMatchedAndBounded : Prop :=
  (∀ s t : State, s.station.LanesSound → s.station.SlotsMatched → step s = .next t → t.station.SlotsMatched) ∧
  (∀ s : Station, s.SlotsMatched →
    (∀ l, (s.laneAt l).window.length ≤ 64) ∧ s.chunker.inDigest.length ≤ 2048 ∧ s.chunker.digests.length ≤ 2048 ∧
      s.exchange.inLookup.length ≤ 2048 ∧ (s.WithinBounds → s.exchange.waitQueue.length ≤ 2112))

/-- Every bucket that an operation writes back is well formed for its index (R16: its check code right, its entries of
pools 0 to 14 under locators other than 0, their keys its own and distinct), and so has every count from 1 to 65,535
(R20); no COMMIT in the index work queue, in the inbound queue or in a COMMITTING entry is under locator 0 (R13, R137).
What well formed means is written out in KeysAndBucketsFollowTheirRules. -/
def Obligations.WriteBacksStayWellFormed : Prop :=
  (∀ s t : State, s.station.ClaimsSound → s.station.EntriesSound → s.station.WritesSound → step s = .next t →
    t.station.WritesSound) ∧
  (∀ (s : Station) (b : Nat) (k : Bucket), s.WritesSound → s.index.write = some (b, k) →
    k.wellFormed b = true ∧ ∀ i : Fin 8, k.places[i].used = true → 1 ≤ k.places[i].count.toNat)

/-- While the scrub runs, every bucket below the one in flight has been written empty, and nothing else of the index unit is
in flight outside RUNNING (R28, R29). -/
def Obligations.ScrubLeavesEmptyBucketsBehind : Prop :=
  ∀ s t : State, s.station.StartSound → s.station.ScrubSound → step s = .next t → t.station.ScrubSound

/-! ## What only some commands change -/

/-- The pool table, its lock and the straps change only as R3, R5 and R182 rule: the table at a cold reset, where every
branch becomes pool 0, and at a POOL_SET in CONFIG with the lock clear; the lock cleared at a cold reset and set at a START
in CONFIG whose straps are valid; the straps while COLD is asserted, as the levels of their pins, and at its release. That
the levels while COLD is asserted are read once, at each COLD_RESET, as a free value, is the model's choice (assumption
19). -/
def Obligations.PoolTableLockAndStrapsChangeByRule : Prop :=
  ∀ s t : State, step s = .next t →
    (t.station.control.pools ≠ s.station.control.pools →
      (s.front = some .coldReset ∧ ∀ b, t.station.poolOf b = 0) ∨
      (s.front = some .poolSet ∧ s.station.control.state = .config ∧ s.station.control.lock = false)) ∧
    (t.station.control.lock ≠ s.station.control.lock →
      (s.front = some .coldReset ∧ t.station.control.lock = false) ∨
      (s.front = some .start ∧ s.station.control.state = .config ∧ t.station.control.state ≠ .config ∧
        t.station.control.lock = true)) ∧
    (t.station.control.straps ≠ s.station.control.straps →
      (s.front = some .coldReset ∧ t.station.control.coldPin = true ∧
        t.station.control.straps = strapsOf (Config.strapLevels s.station.control.strapReads)) ∨
      ∃ n c a k r, s.front = some (.coldRelease n c a k r) ∧ s.station.control.coldPin = true ∧
        t.station.control.straps = ⟨n, c, a, k, r⟩)

/-- The scrub-owed marker (R184). A cold reset sets it, a START that enters SCRUB clears it, and no other step, a warm reset
or the scrub's completion included, changes it; a START that is taken enters SCRUB exactly where the marker is set, else
RUNNING. So a warm reset during SCRUB leaves it clear, and one in CONFIG before any START leaves it set. -/
def Obligations.ScrubOwedMarkerByReset : Prop :=
  ∀ s t : State, step s = .next t →
    (s.front = some .coldReset → t.station.control.scrubOwed = true) ∧
    (s.front = some .warmReset → t.station.control.scrubOwed = s.station.control.scrubOwed) ∧
    (s.front = some .start → t.station.control.state = .scrub → s.station.control.state = .config →
      s.station.control.scrubOwed = true ∧ t.station.control.scrubOwed = false) ∧
    (s.front = some .start → t.station.control.state = .running → s.station.control.state = .config →
      s.station.control.scrubOwed = false ∧ t.station.control.scrubOwed = false) ∧
    (t.station.control.scrubOwed ≠ s.station.control.scrubOwed →
      s.front = some .coldReset ∨
      (s.front = some .start ∧ s.station.control.state = .config ∧ t.station.control.state = .scrub)) ∧
    (s.station.StartSound → s.station.control.state = .scrub → s.station.control.coldPin = false →
      s.front = some .warmReset → t.station.control.state = .config ∧ t.station.control.scrubOwed = false)

/-- The station state changes only by Table 11.2 (R183): to CONFIG at a reset; from CONFIG at a START that is taken, to SCRUB
where a scrub is owed and to RUNNING where none is; from SCRUB to RUNNING when the write of the last bucket completes. -/
def Obligations.StationStateChangesByTable : Prop :=
  ∀ s t : State, step s = .next t → t.station.control.state ≠ s.station.control.state →
    (s.front = some .coldReset ∧ t.station.control.state = .config) ∨
    (s.front = some .warmReset ∧ s.station.control.coldPin = false ∧ t.station.control.state = .config) ∨
    (s.front = some .start ∧ s.station.control.state = .config ∧ s.station.control.straps.clusterSize ≠ 0 ∧
      s.station.control.straps.number < s.station.control.straps.clusterSize ∧
      t.station.control.state = if s.station.control.scrubOwed then .scrub else .running) ∨
    (s.front = some .scrubWriteDone ∧ s.station.control.state = .scrub ∧ t.station.control.state = .running ∧
      ∃ b, s.station.index.scrub = some b ∧ 524287 ≤ b)

/-- A bucket of table memory changes only where a write-back completes, which writes it whole, where a scrub write
completes, which writes it empty, and where a reset cuts a write of that bucket short, which leaves a mixture (R14, R23,
R28, R31, R33). -/
def Obligations.TableMemoryChangesByRule : Prop :=
  ∀ (s t : State) (a : Nat), step s = .next t → t.station.index.table.read a ≠ s.station.index.table.read a →
    (s.front = some .bucketWriteDone ∧ s.station.index.write = some (a, t.station.index.table.read a)) ∨
    (s.front = some .scrubWriteDone ∧ s.station.control.state = .scrub ∧ s.station.index.scrub = some a ∧
      t.station.index.table.read a = emptyBucket) ∨
    ((s.front = some .coldReset ∨ s.front = some .warmReset) ∧ t.station.control.state = .config ∧
      ∃ k, (s.station.index.write = some (a, k) ∨
          s.station.index.write = none ∧ s.station.index.scrub = some a ∧ k = emptyBucket) ∧
        Bucket.MixtureOf (s.station.index.table.read a) k (t.station.index.table.read a))

/-! ## Resets -/

/-- COLD_RESET and WARM_RESET (R183, Table 11.3): every block takes its reset state at the assertion, each outstanding entry
FREE of round 0 with nothing else present (R63); a cold reset also clears the pool table and its lock and sets the
scrub-owed marker, and a warm reset keeps them and the straps. WARM asserted while COLD is asserted leaves the cold reset
standing. Table memory keeps its contents but for a bucket whose write was in flight. While COLD is asserted the straps are
the levels of their pins (R182): a free value, read once at each COLD_RESET (assumption 19), the fifteen levels in the
order of Table 11.1.

COLD_RELEASE and WARM_RELEASE (R182, R183): at the release of an asserted COLD the straps present are held; a release of
WARM samples nothing. A release of a COLD that is not asserted does not arise and changes nothing (assumption 6). -/
def Obligations.ResetsAndReleases : Prop :=
  (∀ (s : Station) (q : List Instr),
      (∃ t : Station, exec .coldReset ⟨s, q⟩ = .next ⟨t, q⟩ ∧ t.BlocksReset ∧ s.TableAfterReset t ∧
        t.fetch = { s.fetch with burst := none } ∧
        (∀ levels : BitVec 15, levels = Config.strapLevels s.control.strapReads → t.control =
          { coldPin := true, warmPin := s.control.warmPin,
            straps := ⟨levels.extractLsb' 11 4, levels.extractLsb' 7 4, levels.extractLsb' 5 2, levels.extractLsb' 2 3,
              levels.extractLsb' 0 2⟩,
            state := .config, pools := [], lock := false, scrubOwed := true, counters := Vector.replicate 24 0,
            ready := none, startedOwed := none, strapReads := s.control.strapReads + 1 })) ∧
      (s.control.coldPin = false → ∃ t : Station, exec .warmReset ⟨s, q⟩ = .next ⟨t, q⟩ ∧ t.BlocksReset ∧
        s.TableAfterReset t ∧ t.fetch = { s.fetch with burst := none } ∧
        t.control =
          { s.control with
            warmPin := true, state := .config, counters := Vector.replicate 24 0, ready := none, startedOwed := none }) ∧
      (s.DeadlinesActed → s.control.coldPin = true →
        exec .warmReset ⟨s, q⟩ = .next ⟨{ s with control := { s.control with warmPin := true } }, q⟩)) ∧
  (∀ (s : Station) (_ : s.DeadlinesActed) (q : List Instr) (n c : BitVec 4) (a : BitVec 2) (k : BitVec 3) (r : BitVec 2),
      (s.control.coldPin = true → exec (.coldRelease n c a k r) ⟨s, q⟩ =
        .next ⟨{ s with control := { s.control with coldPin := false, straps := ⟨n, c, a, k, r⟩ } }, q⟩) ∧
      (s.control.coldPin = false → exec (.coldRelease n c a k r) ⟨s, q⟩ = .next ⟨s, q⟩) ∧
      exec .warmRelease ⟨s, q⟩ = .next ⟨{ s with control := { s.control with warmPin := false } }, q⟩)

/-! ## The stream port -/

/-- The staging area (R168): sixteen words, all 0 after each reset; a write sets the bytes written of its word and nothing
else in the station; a read returns the word's present value; a push copies words and leaves the area as it was; no other
step writes it. So a staging word written after a push leaves every command already pushed as it is. Accesses while a reset
pin is asserted are dropped (R167). -/
def Obligations.StagingAreaHoldsWhatIsWritten : Prop :=
  ∀ (s : Station) (_ : s.DeadlinesActed) (q : List Instr) (i : Fin 16) (bytes : BitVec 4) (value : Word),
    (s.inReset = false → ∃ w : Word,
      (∀ k, k < 4 → w.extractLsb' (8 * k) 8 =
        if bytes.getLsbD k then value.extractLsb' (8 * k) 8 else s.port.staging[i].extractLsb' (8 * k) 8) ∧
      exec (.stagingWrite i bytes value) ⟨s, q⟩ =
        .next ⟨{ s with port := { s.port with staging := s.port.staging.set i w } }, q⟩) ∧
    (s.inReset = true → exec (.stagingWrite i bytes value) ⟨s, q⟩ = .next ⟨s, q⟩) ∧
    (s.inReset = false → s.windowWord (4 * i.val) = s.port.staging[i]) ∧
    (∀ t, exec (.commandWordWrite bytes value) ⟨s, q⟩ = .next t → t.station.port.staging = s.port.staging) ∧
    (s.inReset = false → s.port.fifo.length < 32 → ∀ t, exec (.commandWordWrite bytes value) ⟨s, q⟩ = .next t →
      ∃ e : CmdEntry, t.station.port.fifo = s.port.fifo ++ [e] ∧
        ∀ (k : Nat) (h : k < e.args.length) (h' : k < 16), e.args[k] = s.port.staging[k]) ∧
    (∀ t, exec .coldReset ⟨s, q⟩ = .next t → t.station.port.staging[i] = 0) ∧
    (s.control.coldPin = false → ∀ t, exec .warmReset ⟨s, q⟩ = .next t → t.station.port.staging[i] = 0) ∧
    (∀ (p : List Instr) (t : State), step ⟨s, p⟩ = .next t → t.station.port.staging ≠ s.port.staging →
      p.head? = some .coldReset ∨ p.head? = some .warmReset ∨ ∃ j b v, p.head? = some (.stagingWrite j b v))

/-- COMMAND_WORD_WRITE (R169, R167): the header is the word written, bytes not written taken as zero; with fewer than 32
entries in the command FIFO one entry joins its tail, holding the header and copies of staging words 0 to n − 1 (all sixteen
where n exceeds 16, n in bits 12..8); with 32 the header is dropped and OVERRUN set. Nothing else changes.

REPORT_WORD_READ and STATUS_WORD_READ (R175, R178, R167): a read of the report word removes the oldest word and returns
the bytes asked for, or returns 0 and removes nothing where the FIFO is empty; a read of the status word returns the fields
of Table 10.5, other bits 0, and clears OVERRUN. While a reset pin is asserted both return 0 and have no effect. What the
window returned stands in the model's own field `readData` (assumption 10). -/
def Obligations.WindowAccessesTakeEffect : Prop :=
  (∀ (s : Station) (_ : s.DeadlinesActed) (q : List Instr) (bytes : BitVec 4) (value header : Word),
      (∀ k, k < 4 → header.extractLsb' (8 * k) 8 = if bytes.getLsbD k then value.extractLsb' (8 * k) 8 else 0) →
      (s.inReset = false → s.port.fifo.length < 32 → ∃ args : List Word,
        args.length = min 16 (header.toNat / 256 % 32) ∧
        (∀ (k : Nat) (h : k < args.length) (h' : k < 16), args[k] = s.port.staging[k]) ∧
        exec (.commandWordWrite bytes value) ⟨s, q⟩ =
          .next ⟨{ s with port := { s.port with fifo := s.port.fifo ++ [⟨header, args⟩] } }, q⟩) ∧
      (s.inReset = false → 32 ≤ s.port.fifo.length →
        exec (.commandWordWrite bytes value) ⟨s, q⟩ =
          .next ⟨{ s with port := { s.port with overrun := true } }, q⟩) ∧
      (s.inReset = true → exec (.commandWordWrite bytes value) ⟨s, q⟩ = .next ⟨s, q⟩)) ∧
  (∀ (s : Station) (_ : s.DeadlinesActed) (q : List Instr) (bytes : BitVec 4),
      (s.inReset = false → ∀ oldest rest, s.port.reports = oldest :: rest → ∃ w : Word,
        (∀ k, k < 4 → w.extractLsb' (8 * k) 8 = if bytes.getLsbD k then oldest.extractLsb' (8 * k) 8 else 0) ∧
        exec (.reportWordRead bytes) ⟨s, q⟩ =
          .next ⟨{ s with port := { s.port with reports := rest, readData := w } }, q⟩) ∧
      (s.inReset = false → s.port.reports = [] →
        exec (.reportWordRead bytes) ⟨s, q⟩ = .next ⟨{ s with port := { s.port with readData := 0 } }, q⟩) ∧
      (s.inReset = true →
        exec (.reportWordRead bytes) ⟨s, q⟩ = .next ⟨{ s with port := { s.port with readData := 0 } }, q⟩ ∧
        exec (.statusWordRead bytes) ⟨s, q⟩ = .next ⟨{ s with port := { s.port with readData := 0 } }, q⟩) ∧
      (s.inReset = false → s.WithinBounds → ∃ v w : Word,
        (v.extractLsb' 0 6).toNat = 32 - s.port.fifo.length ∧ (v.extractLsb' 8 11).toNat = s.port.reports.length ∧
        (v.extractLsb' 20 2).toNat = (match s.control.state with | .config => 0 | .scrub => 1 | .running => 2) ∧
        v.getLsbD 24 = s.port.overrun ∧ v.getLsbD 25 = decide (s.port.threshold ≤ s.port.reports.length) ∧
        v.extractLsb' 6 2 = 0 ∧ v.extractLsb' 19 1 = 0 ∧ v.extractLsb' 22 2 = 0 ∧ v.extractLsb' 26 6 = 0 ∧
        (∀ k, k < 4 → w.extractLsb' (8 * k) 8 = if bytes.getLsbD k then v.extractLsb' (8 * k) 8 else 0) ∧
        exec (.statusWordRead bytes) ⟨s, q⟩ =
          .next ⟨{ s with port := { s.port with overrun := false, readData := w } }, q⟩))

/-- UNKNOWN_COMMAND and BAD_STATE (R171, R173, Tables 10.2 and 10.3): a head entry whose code or argument count Table 10.2
does not give is refused whatever the station state, with lane 0; a known command that the station state does not take is
refused with BAD_STATE, with the lane it names where it is a lane command. The entry leaves the FIFO, CMD_ERROR is ready,
nothing else changes. -/
def Obligations.StationStateRefusesCommands : Prop :=
  ∀ (s : Station) (_ : s.DeadlinesActed) (q : List Instr) (e : CmdEntry) (rest : List CmdEntry),
    (s.port.fifo = e :: rest → s.port.cmdReady = none →
      commandCount (e.header.toNat % 256) ≠ some (e.header.toNat / 256 % 32) →
      exec .unknownCommand ⟨s, q⟩ = .next ⟨s.refusedAs e rest 0 .unknownCommand, q⟩) ∧
    (∀ c code, (c, code) ∈ [(Instr.openLane, 5), (.segment, 6), (.stored, 7), (.storeFailed, 8), (.close, 9), (.suspend, 10),
        (.resume, 11), (.abort, 12)] →
      s.HeadIs code e rest → s.control.state ≠ .running → ∀ l, e.names l →
      exec c ⟨s, q⟩ = .next ⟨s.refusedAs e rest l .badState, q⟩) ∧
    (s.HeadIs 13 e rest → s.control.state ≠ .running →
      exec .release ⟨s, q⟩ = .next ⟨s.refusedAs e rest 0 .badState, q⟩) ∧
    (∀ c code, (c, code) ∈ [(Instr.configure, 2), (.start, 3)] →
      s.HeadIs code e rest → s.control.state ≠ .config →
      exec c ⟨s, q⟩ = .next ⟨s.refusedAs e rest 0 .badState, q⟩)

/-- POOL_SET (R4, Table 1.1): in CONFIG with the lock clear the branch's entry takes the pool, every other branch keeps its
own, and no report is made; in CONFIG with the lock set the command is refused with LOCKED, and in SCRUB and RUNNING with
BAD_STATE, the table unchanged. -/
def Obligations.PoolSetByStateAndLock : Prop :=
  ∀ (s : Station) (_ : s.DeadlinesActed) (q : List Instr) (e : CmdEntry) (rest : List CmdEntry), s.HeadIs 1 e rest →
    (s.control.state = .config → s.control.lock = false → ∃ t : Station,
      exec .poolSet ⟨s, q⟩ = .next ⟨t, q⟩ ∧
      t = { s.popped rest with control := { s.control with pools := t.control.pools } } ∧
      ∀ b : Branch, t.poolOf b =
        if b = (e.arg 0).extractLsb' 0 12 then (e.arg 0).extractLsb' 16 4 else s.poolOf b) ∧
    (s.control.state = .config → s.control.lock = true →
      exec .poolSet ⟨s, q⟩ = .next ⟨s.refusedAs e rest 0 .locked, q⟩) ∧
    (s.control.state ≠ .config → exec .poolSet ⟨s, q⟩ = .next ⟨s.refusedAs e rest 0 .badState, q⟩)

/-- CONFIGURE and STATS (R172, R188, R189): a threshold of 1 to 1,024 becomes the request threshold, any other is refused
with BAD_LENGTH; STATS copies the twenty-four counters as they stand into a STATS report. The counters stand in the order of
Table 11.5, and an advance moves its own counter by one, wrapping, and no other. -/
def Obligations.ConfigureAndStatsDecided : Prop :=
  ∀ (s : Station) (_ : s.DeadlinesActed) (q : List Instr) (e : CmdEntry) (rest : List CmdEntry),
    (s.HeadIs 2 e rest → s.control.state = .config →
      ((1 ≤ (e.arg 0).toNat % 2048 ∧ (e.arg 0).toNat % 2048 ≤ 1024 → exec .configure ⟨s, q⟩ =
        .next ⟨{ s with port := { s.port with fifo := rest, threshold := (e.arg 0).toNat % 2048 } }, q⟩) ∧
      ((e.arg 0).toNat % 2048 = 0 ∨ 1024 < (e.arg 0).toNat % 2048 →
        exec .configure ⟨s, q⟩ = .next ⟨s.refusedAs e rest 0 .badLength, q⟩))) ∧
    (s.HeadIs 4 e rest → s.control.ready = none → exec .stats ⟨s, q⟩ =
      .next ⟨{ s.popped rest with control := { s.control with ready := some (.stats s.control.counters) } }, q⟩) ∧
    (∀ (c : Counter) (k : Fin 24), (s.bump c).control.counters[k] =
      if k = c.index then s.control.counters[k] + 1 else s.control.counters[k]) ∧
    [Counter.framesSent, .framesReceived, .checkFailures, .framesRefused, .sendFailures, .lateFrames, .staleDrops,
      .claimsCreated, .promotions, .leaseExpiries, .knownVerdicts, .writeVerdicts, .unindexedWaitersFull,
      .unindexedClaimsFull, .unindexedBucketFull, .unindexedPoolIsolated, .unindexedOwnerAbsent,
      .unindexedOwnerRestarted, .unindexedNoAnswer, .unindexedHoldExpired, .unindexedNotIndexed, .bucketsLost, .conflicts,
      .compensationsLost].map (fun c => c.index.val) = List.range 24

/-- START (R185, R186, R160, R161): in CONFIG with no report held, straps with cluster size 0 or a number not below it are
refused with START_REFUSED and change nothing else; otherwise the lock is set and the clock runs from 0, and the station
enters SCRUB with the write of bucket 0 in flight where a scrub is owed, which is then owed no more, or RUNNING at once,
with STARTED ready, flag 0, the first beacon due and the beacon deadline at 16. -/
def Obligations.StartDecidedByStraps : Prop :=
  ∀ (s : Station) (_ : s.DeadlinesActed) (q : List Instr) (e : CmdEntry) (rest : List CmdEntry),
    s.HeadIs 3 e rest → s.control.state = .config → s.control.ready = none →
    let x := s.control.straps
    (x.clusterSize = 0 ∨ x.clusterSize.toNat ≤ x.number.toNat → exec .start ⟨s, q⟩ =
      .next ⟨{ s.popped rest with
        control := { s.control with ready := some (.startRefused x.number x.clusterSize) } }, q⟩) ∧
    (x.clusterSize ≠ 0 → x.number.toNat < x.clusterSize.toNat → s.control.scrubOwed = true → exec .start ⟨s, q⟩ =
      .next ⟨{ s.popped rest with
        control := { s.control with lock := true, scrubOwed := false, state := .scrub }
        index := { s.index with scrub := some 0 }
        clock := { running := true, now := 0, divider := 0, advances := 0, reached := [] } }, q⟩) ∧
    (x.clusterSize ≠ 0 → x.number.toNat < x.clusterSize.toNat → s.control.scrubOwed = false → exec .start ⟨s, q⟩ =
      .next ⟨Station.afterBeaconDue { s.popped rest with
        control := { s.control with
          lock := true, state := .running, ready := some (.started false x.number x.clusterSize) }
        roster := { s.roster with beaconDeadline := some 16 }
        clock := { running := true, now := 0, divider := 0, advances := 0, reached := [] } }, q⟩)

/-- Host RELEASE in RUNNING (R172, R13, R12, R69): a locator of 0 is refused with BAD_LOCATOR; pool 15 makes RELEASED
NOT_FOUND ready with the command's locator and cookie, without a tag; with 64 host releases waiting the command is refused
with QUEUE_FULL; otherwise a host release request joins the tail of the tag wait queue with its key, locator, cookie and
owner. -/
def Obligations.HostReleaseDecided : Prop :=
  ∀ (s : Station) (_ : s.DeadlinesActed) (q : List Instr) (e : CmdEntry) (rest : List CmdEntry),
    s.HeadIs 13 e rest → s.control.state = .running →
    let key : Key := ⟨(e.arg 0).extractLsb' 0 4, e.arg 1 ++ e.arg 2 ++ e.arg 3 ++ e.arg 4⟩
    let locator : Locator := (e.arg 6).extractLsb' 0 16 ++ e.arg 5
    let cookie : Cookie := (e.arg 0).extractLsb' 16 16
    (locator = 0 → exec .release ⟨s, q⟩ = .next ⟨s.refusedAs e rest 0 .badLocator, q⟩) ∧
    (locator ≠ 0 → key.pool = 15 → s.exchange.ready = none → exec .release ⟨s, q⟩ =
      .next ⟨{ s.popped rest with
        exchange := { s.exchange with ready := some (.released (.reply .notFound) locator cookie) } }, q⟩) ∧
    (locator ≠ 0 → key.pool ≠ 15 → 64 ≤ s.exchange.hostReleases →
      exec .release ⟨s, q⟩ = .next ⟨s.refusedAs e rest 0 .queueFull, q⟩) ∧
    (locator ≠ 0 → key.pool ≠ 15 → s.exchange.hostReleases < 64 → exec .release ⟨s, q⟩ =
      .next ⟨{ s.popped rest with exchange := { s.exchange with
        waitQueue := s.exchange.waitQueue ++
          [.hostRelease key locator cookie (ownerOf s.control.straps.clusterSize key.fp)] } }, q⟩)

/-- What a report that its producer holds keeps waiting (R170, R24, R40, R125, R83, R154): a held CMD_ERROR stops every
command of the FIFO; a report held by station control stops START in CONFIG and STATS; one held by the exchange unit
stops a RELEASE of pool 15; a BUCKET_LOST held stops work items and lease expiries; a report held by the lane unit or
the exchange unit stops its next one; a PEER held stops the roster's changes, conflicts and beacons. Nothing changes
then. Where the event does not arise nothing changes (the model's choice, assumption 6). -/
def Obligations.HeldReportsKeepTheirUnitsWaiting : Prop :=
  ∀ (s : Station) (_ : s.DeadlinesActed) (q : List Instr),
    (s.port.cmdReady ≠ none → ∀ c ∈ [Instr.poolSet, .configure, .start, .stats, .unknownCommand, .openLane, .segment,
        .stored, .storeFailed, .close, .suspend, .resume, .abort, .release],
      exec c ⟨s, q⟩ = .next ⟨s, q⟩) ∧
    (∀ e rest, s.control.ready ≠ none → (s.HeadIs 4 e rest → exec .stats ⟨s, q⟩ = .next ⟨s, q⟩) ∧
      (s.HeadIs 3 e rest → s.control.state = .config → exec .start ⟨s, q⟩ = .next ⟨s, q⟩)) ∧
    (∀ e rest, s.exchange.ready ≠ none → s.HeadIs 13 e rest → s.control.state = .running →
      (e.arg 6).extractLsb' 0 16 ++ e.arg 5 ≠ 0#48 → (e.arg 0).extractLsb' 0 4 = 15#4 →
      exec .release ⟨s, q⟩ = .next ⟨s, q⟩) ∧
    (s.index.ready ≠ none → ∀ c ∈ [Instr.ask, .commit, .drop, .releaseItem, .peerLost, .peerRestarted, .leaseExpiry],
      exec c ⟨s, q⟩ = .next ⟨s, q⟩) ∧
    (s.lane.ready ≠ none → exec .laneReportReady ⟨s, q⟩ = .next ⟨s, q⟩) ∧
    (s.exchange.ready ≠ none → exec .exchangeReportReady ⟨s, q⟩ = .next ⟨s, q⟩) ∧
    (s.roster.ready ≠ none → ∀ c ∈ [Instr.peerJoin, .peerSilent, .conflictReport, .beaconTaken],
      exec c ⟨s, q⟩ = .next ⟨s, q⟩)

/-! ## Reports -/

/-- Every report is a header word and its body (R174, R181, Tables 10.6 and 10.7): the header gives the kind, the lane (0
where the report names none) and the number of body words, and each body is laid out word by word as its row says. -/
def Obligations.ReportsFollowTheirLayouts : Prop :=
  (∀ (f : Bool) (n c : BitVec 4), (Report.started f n c).words =
    [headerWord 1 0 1, word (f.toNat + 256 * n.toNat + 4096 * c.toNat)]) ∧
  (∀ n c : BitVec 4, (Report.startRefused n c).words =
    [headerWord 2 0 1, word (256 * n.toNat + 4096 * c.toNat)]) ∧
  (∀ (l : LaneNo) (r : ParkedRecord) (p : Pool), (Report.opened l r p).words =
    [headerWord 3 l.val 6, r.stream, word (r.branch.toNat + 65536 * p.toNat)] ++ lowHigh r.offset ++
      [r.nextRecipe, r.nextSegment]) ∧
  (∀ (l : LaneNo) (seq : Word) (o : Offset) (n : Nat) (fp : Fingerprint), n < 131072 →
    (Report.store l seq o n fp).words =
      [headerWord 4 l.val 8, seq] ++ lowHigh o ++ [word n] ++ fourWords fp) ∧
  (∀ (l : LaneNo) (seq : Word) (o : Offset) (n : Nat) (fp : Fingerprint) (k : Kind) (loc : Locator) (kind reason : Nat),
    n < 131072 →
    (k, kind, reason) ∈ [(Kind.dup, 0, 0), (.new, 1, 0), (.unindexed .waitersFull, 2, 1), (.unindexed .claimsFull, 2, 2),
      (.unindexed .bucketFull, 2, 3), (.unindexed .poolIsolated, 2, 4), (.unindexed .ownerAbsent, 2, 5),
      (.unindexed .ownerRestarted, 2, 6), (.unindexed .noAnswer, 2, 7), (.unindexed .holdExpired, 2, 8),
      (.unindexed .notIndexed, 2, 9), (.doubt, 3, 0)] →
    (Report.recipe l seq o n fp k loc).words =
      [headerWord 5 l.val 10, seq] ++ lowHigh o ++ [word (n + 2 ^ 24 * kind + 2 ^ 28 * reason)] ++ fourWords fp ++
        lowHigh loc) ∧
  (∀ (l : LaneNo) (seq : Word), (Report.segmentDone l seq).words = [headerWord 6 l.val 1, seq]) ∧
  (∀ (l : LaneNo) (r : ParkedRecord), (Report.closed l r).words = headerWord 7 l.val 15 :: recordWords r ∧
    (Report.parked l r).words = headerWord 8 l.val 15 :: recordWords r) ∧
  (∀ (l : LaneNo) (stream last : Word) (a : AbortReason) (n : Nat) (o : Offset),
    (a, n) ∈ [(AbortReason.host, 0), (.storeFailed, 1), (.fetchError, 2)] →
    (Report.aborted l stream a last o).words = [headerWord 9 l.val 5, stream, word n, last] ++ lowHigh o) ∧
  (∀ (l : LaneNo) (k : Key) (loc : Locator),
    (Report.reclaim l k loc).words = [headerWord 10 l.val 7, word k.pool.toNat] ++ fourWords k.fp ++ lowHigh loc ∧
    (Report.doubt l k loc).words = [headerWord 11 l.val 7, word k.pool.toNat] ++ fourWords k.fp ++ lowHigh loc) ∧
  (∀ (o : ReleasedOutcome) (n : Nat) (loc : Locator) (cookie : Cookie),
    (o, n) ∈ [(ReleasedOutcome.reply .pinned, 0), (.reply .counted, 1), (.reply .retired, 2), (.reply .notFound, 3),
      (.undelivered, 4), (.uncertain, 5)] →
    (Report.released o loc cookie).words = [headerWord 12 0 3, word (n + 65536 * cookie.toNat)] ++ lowHigh loc) ∧
  (∀ (p : StationNo) (ev : PeerEvent) (n : Nat),
    (ev, n) ∈ [(PeerEvent.joined, 0), (.returned, 1), (.silent, 2), (.restarted, 3), (.conflictOwnNumber, 4)] →
    (Report.peer ev p).words = [headerWord 13 0 1, word (n + 256 * p.toNat)]) ∧
  (∀ (p : StationNo) (heard : BitVec 4), (Report.peer (.conflictClusterSize heard) p).words =
    [headerWord 13 0 1, word (4 + 256 * p.toNat + 65536 + 2 ^ 24 * heard.toNat)]) ∧
  (∀ b, b < 524288 → (Report.bucketLost b).words = [headerWord 14 0 1, word b]) ∧
  (∀ v : Vector Word 24, (Report.stats v).words = headerWord 15 0 24 :: v.toList) ∧
  (∀ (l : LaneNo) (code : Byte) (x : CmdErrorCode) (n : Nat),
    (x, n) ∈ [(CmdErrorCode.unknownCommand, 1), (.badState, 2), (.locked, 3), (.laneBusy, 4), (.laneFree, 5),
      (.laneEnding, 6), (.queueFull, 7), (.badLength, 8), (.badLocator, 9), (.notStoring, 10)] →
    (Report.cmdError l code x).words = [headerWord 16 l.val 1, word (code.toNat + 256 * n)])

/-- LANE_REPORT_READY (R125, R122, R123, R124, R128): where no report is held, the first lane that has a duty, searched
from the lane after the one served last and wrapping, has its first duty made ready in the order of R125, and the
search moves to the lane after it; where no lane has a duty nothing changes. That the event then changes nothing is
the model's choice (assumption 6), and so is that OPENED carries the lane record as it stands when it is made ready
(assumption 27). -/
def Obligations.LaneReportsGoRoundInOrder : Prop :=
  ∀ (s : Station) (_ : s.DeadlinesActed) (q : List Instr), s.lane.ready = none →
    ((∀ l, ¬(s.laneAt l).HasDuty) → exec .laneReportReady ⟨s, q⟩ = .next ⟨s, q⟩) ∧
    (∀ (l : LaneNo) (r : Report) (x : Lane),
      (∀ k : LaneNo, (k - s.lane.next).val < (l - s.lane.next).val → ¬(s.laneAt k).HasDuty) →
      Lane.FirstDuty l (s.laneAt l) r x →
      exec .laneReportReady ⟨s, q⟩ =
        .next ⟨{ s.withLane l x with
          lane := { (s.withLane l x).lane with ready := some r, next := l + 1 } }, q⟩)

/-- REPORT_APPEND (R174, R176, R122, R187): the report taken is that of the producer whose choice waits for room, else the
first one held in the round-robin order control, command, lane, exchange, roster, index, from the one after the last
appended. It is appended whole where the FIFO has room for its words, else it waits with the choice. Its producer is
told: a producer holds no report then, but station control makes an owed STARTED ready at once, and at a RECIPE the
entry bound to the slot is freed, or is left with the report it owes. The model records the waiting choice at this
event (assumption 18). -/
def Obligations.ReportsAppendedWholeInTurn : Prop :=
  ∀ (s : Station) (_ : s.DeadlinesActed) (q : List Instr) (p : Producer) (r : Report),
    (s.port.arbiterChoice = some p ∨ s.port.arbiterChoice = none ∧
      ∀ p', s.readyReport p' ≠ none → Producer.distance s.port.arbiterLast p ≤ Producer.distance s.port.arbiterLast p') →
    s.readyReport p = some r →
    (1024 < s.port.reports.length + r.words.length →
      exec .reportAppend ⟨s, q⟩ = .next ⟨{ s with port := { s.port with arbiterChoice := some p } }, q⟩) ∧
    (s.port.reports.length + r.words.length ≤ 1024 →
      let a : Port := { s.port with reports := s.port.reports ++ r.words, arbiterLast := p, arbiterChoice := none }
      (p = .control → s.control.startedOwed = none → exec .reportAppend ⟨s, q⟩ =
        .next ⟨{ s with port := a, control := { s.control with ready := none } }, q⟩) ∧
      (∀ f, p = .control → s.control.startedOwed = some f → exec .reportAppend ⟨s, q⟩ =
        .next ⟨{ s with
          port := a
          control := { s.control with
            ready := some (.started f s.control.straps.number s.control.straps.clusterSize), startedOwed := none } }, q⟩) ∧
      (p = .command → exec .reportAppend ⟨s, q⟩ = .next ⟨{ s with port := { a with cmdReady := none } }, q⟩) ∧
      (p = .exchange → exec .reportAppend ⟨s, q⟩ =
        .next ⟨{ s with port := a, exchange := { s.exchange with ready := none } }, q⟩) ∧
      (p = .roster → exec .reportAppend ⟨s, q⟩ =
        .next ⟨{ s with port := a, roster := { s.roster with ready := none } }, q⟩) ∧
      (p = .index → exec .reportAppend ⟨s, q⟩ =
        .next ⟨{ s with port := a, index := { s.index with ready := none } }, q⟩) ∧
      (p = .lane →
        (∀ l seq o n fp k loc i, r = .recipe l seq o n fp k loc → s.BoundAt l seq i →
          exec .reportAppend ⟨s, q⟩ =
            .next ⟨{ s with
              port := a
              lane := { s.lane with ready := none }
              exchange := { s.exchange with entries := s.exchange.entries.set i (s.entry i).freedOrOwing } }, q⟩) ∧
        ((∀ l seq o n fp k loc i, r = .recipe l seq o n fp k loc → ¬s.BoundAt l seq i) →
          exec .reportAppend ⟨s, q⟩ = .next ⟨{ s with port := a, lane := { s.lane with ready := none } }, q⟩)))

/-! ## Lane commands -/

/-- OPEN and RESUME in RUNNING (R118, R119, Table 6.2): a FREE lane whose abort list is empty becomes OPEN with the record
that the arguments spell (for OPEN the stream id and the branch, all else 0; for RESUME every field of the parked record),
the pool that the pool table gives the branch, an empty queue and window, a fresh chunking context and OPENED owed. Any
other lane refuses with LANE_BUSY.

SEGMENT in RUNNING (R114, R113): refused with LANE_FREE on a FREE lane, LANE_ENDING on a draining one, BAD_LENGTH for a
length of 0 or above 1,048,576, QUEUE_FULL with 8 descriptors queued, in that order; otherwise a descriptor joins the tail
with the lane's next segment sequence number, which advances, the address, the length, nothing consumed, and an end offset
of its length past the end of the queue, or past the lane's byte offset where the queue is empty. -/
def Obligations.OpenResumeAndSegmentDecided : Prop :=
  (∀ (s : Station) (_ : s.DeadlinesActed) (q : List Instr) (e : CmdEntry) (rest : List CmdEntry) (l : LaneNo) (c : Instr) (r : ParkedRecord),
      s.control.state = .running → e.names l →
      (c = .openLane ∧ s.HeadIs 5 e rest ∧ r = ⟨e.arg 1, (e.arg 0).extractLsb' 16 12, 0, 0, 0, 0, 0, 0, 0, 0⟩ ∨
        c = .resume ∧ s.HeadIs 11 e rest ∧
          r = ⟨e.arg 1, (e.arg 2).extractLsb' 0 12, (e.arg 4).extractLsb' 0 16 ++ e.arg 3, e.arg 5, e.arg 6,
            (e.arg 8).extractLsb' 0 16 ++ e.arg 7, (e.arg 10).extractLsb' 0 16 ++ e.arg 9,
            (e.arg 12).extractLsb' 0 16 ++ e.arg 11, (e.arg 14).extractLsb' 0 16 ++ e.arg 13, e.arg 15⟩) →
      ((s.laneAt l).state = .free → (s.laneAt l).abortList = [] →
        exec c ⟨s, q⟩ = .next ⟨{ (s.popped rest).withLane l
            { state := .openLane
              record := r
              pool := s.poolOf r.branch
              segments := []
              window := []
              openedOwed := true
              abortList := [] } with
          chunker := { s.chunker with contexts := s.chunker.contexts.set l ⟨0, 0, [], []⟩ } }, q⟩) ∧
      ((s.laneAt l).state ≠ .free ∨ (s.laneAt l).abortList ≠ [] →
        exec c ⟨s, q⟩ = .next ⟨s.refusedAs e rest l .laneBusy, q⟩)) ∧
  (∀ (s : Station) (_ : s.DeadlinesActed) (q : List Instr) (e : CmdEntry) (rest : List CmdEntry) (l : LaneNo),
      s.HeadIs 6 e rest → s.control.state = .running → e.names l →
      let x := s.laneAt l
      let n := (e.arg 3).toNat
      (x.state = .free → exec .segment ⟨s, q⟩ = .next ⟨s.refusedAs e rest l .laneFree, q⟩) ∧
      (x.state = .closing ∨ x.state = .suspending →
        exec .segment ⟨s, q⟩ = .next ⟨s.refusedAs e rest l .laneEnding, q⟩) ∧
      (x.state = .openLane → n = 0 ∨ 1048576 < n →
        exec .segment ⟨s, q⟩ = .next ⟨s.refusedAs e rest l .badLength, q⟩) ∧
      (x.state = .openLane → 1 ≤ n → n ≤ 1048576 → 8 ≤ x.segments.length →
        exec .segment ⟨s, q⟩ = .next ⟨s.refusedAs e rest l .queueFull, q⟩) ∧
      (∀ base : Offset, x.state = .openLane → 1 ≤ n → n ≤ 1048576 → x.segments.length < 8 →
        (x.segments = [] ∧ base = x.record.offset ∨ ∃ a d, x.segments = a ++ [d] ∧ base = d.endOffset) →
        exec .segment ⟨s, q⟩ = .next ⟨(s.popped rest).withLane l { x with
          segments := x.segments ++ [⟨x.record.nextSegment, e.arg 2 ++ e.arg 1, n, base + BitVec.ofNat 48 n, 0⟩]
          record := { x.record with nextSegment := x.record.nextSegment + 1 } }, q⟩))

/-- STORED in RUNNING (R120, R78, R13): refused with LANE_FREE on a FREE lane, BAD_LOCATOR for locator 0, NOT_STORING where
no slot of the lane that is STORING with its STORE reported bears the sequence number. Otherwise the slot takes the locator:
an unindexed one is RESOLVED UNINDEXED with its reason; an indexed one is COMMITTING, and the entry bound to it is
COMMITTING with the locator, a PENDING COMMIT at attempt 1 and no deadline. Nothing else changes. -/
def Obligations.StoredTakesTheLocator : Prop :=
  ∀ (s : Station) (_ : s.DeadlinesActed) (q : List Instr) (e : CmdEntry) (rest : List CmdEntry) (l : LaneNo),
    s.HeadIs 7 e rest → s.control.state = .running → e.names l →
    let x := s.laneAt l
    let seq := e.arg 1
    let locator : Locator := (e.arg 3).extractLsb' 0 16 ++ e.arg 2
    (x.state = .free → exec .stored ⟨s, q⟩ = .next ⟨s.refusedAs e rest l .laneFree, q⟩) ∧
    (x.state ≠ .free → locator = 0 → exec .stored ⟨s, q⟩ = .next ⟨s.refusedAs e rest l .badLocator, q⟩) ∧
    (x.state ≠ .free → locator ≠ 0 → (∀ y ∈ x.window, y.seq = seq → ∀ u, y.state ≠ .storing u false) →
      exec .stored ⟨s, q⟩ = .next ⟨s.refusedAs e rest l .notStoring, q⟩) ∧
    (∀ a y b, x.state ≠ .free → locator ≠ 0 → x.window = a ++ y :: b → y.seq = seq →
      (∀ z ∈ a ++ b, z.seq ≠ seq) →
      (∀ r, y.state = .storing (some r) false → exec .stored ⟨s, q⟩ =
        .next ⟨(s.popped rest).withLane l { x with
          window := a ++ { y with state := .resolved (.unindexed r), locator := some locator } :: b }, q⟩) ∧
      (y.state = .storing none false →
        let t := (s.popped rest).withLane l { x with
          window := a ++ { y with state := .committing, locator := some locator } :: b }
        (∀ i, s.BoundAt l seq i → exec .stored ⟨s, q⟩ =
          .next ⟨t.setEntry i { s.entry i with
            state := .committing
            locator := some locator
            request := some (.commit, .pending)
            attempts := 1
            ackedOnce := false
            deadline := none }, q⟩) ∧
        ((∀ i, (s.entry i).binding ≠ some ⟨l, seq⟩) → exec .stored ⟨s, q⟩ = .next ⟨t, q⟩)))

/-- ABORT and STORE_FAILED in RUNNING (R129, R121, R89, R105, R110, R130, R131, Tables 4.7 and 6.8): an ABORT on a lane that
is not FREE aborts it with reason HOST; a STORE_FAILED that names a STORING slot whose STORE was reported aborts it with
reason STORE_FAILED, and any other is refused with NOT_STORING; both are refused with LANE_FREE on a FREE lane. -/
def Obligations.AbortAndStoreFailedEndLane : Prop :=
  ∀ (s : Station) (_ : s.DeadlinesActed) (q : List Instr) (e : CmdEntry) (rest : List CmdEntry) (l : LaneNo),
    s.control.state = .running → e.names l →
    let x := s.laneAt l
    (∀ c code, (c, code) ∈ [(Instr.abort, 12), (.storeFailed, 8)] → s.HeadIs code e rest → x.state = .free →
      exec c ⟨s, q⟩ = .next ⟨s.refusedAs e rest l .laneFree, q⟩) ∧
    (s.HeadIs 12 e rest → x.state ≠ .free →
      ∃ t, exec .abort ⟨s, q⟩ = .next ⟨t, q⟩ ∧ (s.popped rest).LaneAborted t l .host) ∧
    (s.HeadIs 8 e rest → x.state ≠ .free → (∀ y ∈ x.window, y.seq = e.arg 1 → ∀ u, y.state ≠ .storing u false) →
      exec .storeFailed ⟨s, q⟩ = .next ⟨s.refusedAs e rest l .notStoring, q⟩) ∧
    (∀ a y b u, s.HeadIs 8 e rest → x.state ≠ .free → x.window = a ++ y :: b → (∀ z ∈ a, z.seq ≠ e.arg 1) →
      y.seq = e.arg 1 → y.state = .storing u false →
      ∃ t, exec .storeFailed ⟨s, q⟩ = .next ⟨t, q⟩ ∧ (s.popped rest).LaneAborted t l .storeFailed)

/-- CLOSE and SUSPEND in RUNNING (R127, R106, R107): refused with LANE_FREE on a FREE lane and LANE_ENDING on a draining one.
An OPEN lane becomes CLOSING or SUSPENDING; where its queued bytes are all consumed and no burst is in flight for it, its
FILLING slot, if it has one, is cut at once. That a void burst, which an earlier life of the lane left in flight, does not
count as one in flight for it is read from the manual (assumption 20). -/
def Obligations.CloseAndSuspendDrainLane : Prop :=
  ∀ (s : Station) (_ : s.DeadlinesActed) (q : List Instr) (e : CmdEntry) (rest : List CmdEntry) (l : LaneNo) (c : Instr) (code : Nat)
    (state : LaneState),
    (c, code, state) ∈ [(Instr.close, 9, LaneState.closing), (.suspend, 10, .suspending)] →
    s.HeadIs code e rest → s.control.state = .running → e.names l →
    let x := s.laneAt l
    let consumed := (∀ d ∈ x.segments, d.length ≤ d.consumed) ∧
      (∀ b, s.chunker.burst = some b → b.lane = l → b.void = true)
    (x.state = .free → exec c ⟨s, q⟩ = .next ⟨s.refusedAs e rest l .laneFree, q⟩) ∧
    (x.state = .closing ∨ x.state = .suspending → exec c ⟨s, q⟩ = .next ⟨s.refusedAs e rest l .laneEnding, q⟩) ∧
    (x.state = .openLane → ¬consumed ∨ (∀ y ∈ x.window, y.state ≠ .filling) →
      exec c ⟨s, q⟩ = .next ⟨(s.popped rest).withLane l { x with state := state }, q⟩) ∧
    (∀ a y, x.state = .openLane → consumed → x.window = a ++ [y] → (∀ z ∈ a, z.state ≠ .filling) → y.state = .filling →
      exec c ⟨s, q⟩ =
        .next ⟨((s.popped rest).withLane l { x with state := state, window := a ++ [y.cutToDigesting] }).withCut l y.seq
          s.chunker.contexts[l], q⟩)

/-! ## The index unit -/

/-- Bin, owner and bucket of a key (R8, R9): the owner is fingerprint bits 127..120 modulo the cluster size, the same
whatever the pool; the bucket index is bits 119..101 with pool × 32,768 added by exclusive-or, below 524,288; and two keys of
one fingerprint in different pools have different buckets.

What the damage check tests (R16): bucket b is well formed exactly where its check code is that of its places, an empty
place has all fields zero, and every entry has a pool from 0 to 14, a locator other than 0, a count from 1 and a key of
this bucket by R9, no two of one key.

The check code (R17, R136): the register starts all ones; each bit shifts it left by one, and where the bit leaving it
differs from the bit taken, x^12 + x^5 + 1 is added by exclusive-or (x^16 leaves). The bits are those of the eight places in
order, 197 each: used marker, pool, fingerprint, locator, count, each most significant bit first; 1,576 in all. -/
def Obligations.KeysAndBucketsFollowTheirRules : Prop :=
  (∀ (size : BitVec 4) (fp : Fingerprint), size ≠ 0 →
    (ownerOf size fp).toNat = fp.toNat / 2 ^ 120 % size.toNat ∧ (ownerOf size fp).toNat < size.toNat) ∧
  (∀ k : Key, bucketIndex k = (fp19 k.fp) ^^^ (k.pool.toNat * 32768) ∧ bucketIndex k < 524288) ∧
  (∀ (fp : Fingerprint) (p p' : Pool), p ≠ p' → bucketIndex ⟨p, fp⟩ ≠ bucketIndex ⟨p', fp⟩) ∧
  (∀ (b : Nat) (k : Bucket), k.wellFormed b = true ↔
    k.code = crc16 (placesBits k.places) ∧
    (∀ i : Fin 8, k.places[i].used = false → k.places[i] = ⟨false, 0, 0, 0, 0⟩) ∧
    (∀ i : Fin 8, k.places[i].used = true →
      k.places[i].pool.toNat ≤ 14 ∧ k.places[i].locator ≠ 0 ∧ 1 ≤ k.places[i].count.toNat ∧
        bucketIndex ⟨k.places[i].pool, k.places[i].fp⟩ = b) ∧
    (∀ i j : Fin 8, k.places[i].used = true → k.places[j].used = true → k.places[i].pool = k.places[j].pool →
      k.places[i].fp = k.places[j].fp → i = j)) ∧
  crc16 [] = BitVec.ofNat 16 65535 ∧
  (∀ (bits : List Bool) (x : Bool),
    let r := (crc16 bits).toNat
    crc16 (bits ++ [x]) =
      BitVec.ofNat 16 (2 * r) ^^^ (if r.testBit 15 = x then 0 else BitVec.ofNat 16 (2 ^ 12 + 2 ^ 5 + 1))) ∧
  (∀ p : Place, p.bits =
    p.used :: (cellsOf 4 p.pool.toNat ++ cellsOf 128 p.fp.toNat ++ cellsOf 48 p.locator.toNat ++ cellsOf 16 p.count.toNat)) ∧
  (∀ ps : Vector Place 8, (placesBits ps).length = 1576 ∧ placesBits ps =
    ps[0].bits ++ ps[1].bits ++ ps[2].bits ++ ps[3].bits ++ ps[4].bits ++ ps[5].bits ++ ps[6].bits ++ ps[7].bits)

/-- ASK on a well-formed bucket (R45, R46, R47, R18, R37, Table 3.4). Pool 15: NOINDEX POOL_ISOLATED. A committed key:
KNOWN with its locator, counted, the count one higher and written back, but for a pinned one, which changes nothing. A
claimed key: WRITE to its writer, counted; HOLD to a pair on its waiter list; HOLD to any other, which joins the list's
tail while fewer than 6 wait, else NOINDEX WAITERS_FULL. A key neither committed nor claimed: NOINDEX CLAIMS_FULL with 128
claims; NOINDEX BUCKET_FULL with a bucket sum of 8; else WRITE, with a claim for the asker at the lowest free position,
lease deadline now + 64, both counted. One verdict to the asker; nothing else changes. -/
def Obligations.AskDecided : Prop :=
  ∀ (s : Station) (_ : s.DeadlinesActed) (q : List Instr) (x : Pair) (k : Key) (rest : List WorkItem) (ps : Vector Place 8),
    s.TakesItem (.ask x k) rest → s.Opens (bucketIndex k) ps →
    let verdict (v : Verdict) : List Answer := [⟨x, .verdict v⟩]
    (k.pool = 15 → exec .ask ⟨s, q⟩ = .next ⟨s.decided rest none (verdict (.noindex .poolIsolated)), q⟩) ∧
    (k.pool ≠ 15 →
      (∀ i, HeldAt k ps i → ps[i].count = 65535 →
        exec .ask ⟨s, q⟩ = .next ⟨(s.decided rest none (verdict (.known ps[i].locator))).bump .knownVerdicts, q⟩) ∧
      (∀ i, HeldAt k ps i → ps[i].count ≠ 65535 →
        exec .ask ⟨s, q⟩ = .next ⟨(s.decided rest
          (writeOf (bucketIndex k) (ps.set i ⟨true, k.pool, k.fp, ps[i].locator, ps[i].count + 1⟩))
          (verdict (.known ps[i].locator))).bump .knownVerdicts, q⟩) ∧
      (∀ p c, NotCommitted k ps → s.ClaimedAt k p c →
        (x = c.writer → exec .ask ⟨s, q⟩ = .next ⟨(s.decided rest none (verdict .write)).bump .writeVerdicts, q⟩) ∧
        (x ≠ c.writer → x ∈ c.waiters → exec .ask ⟨s, q⟩ = .next ⟨s.decided rest none (verdict .hold), q⟩) ∧
        (x ≠ c.writer → x ∉ c.waiters → c.waiters.length < 6 → exec .ask ⟨s, q⟩ =
          .next ⟨(s.decided rest none (verdict .hold)).withClaim p (some { c with waiters := c.waiters ++ [x] }), q⟩) ∧
        (x ≠ c.writer → x ∉ c.waiters → 6 ≤ c.waiters.length → exec .ask ⟨s, q⟩ =
          .next ⟨s.decided rest none (verdict (.noindex .waitersFull)), q⟩)) ∧
      (NotCommitted k ps → s.NotClaimed k →
        ((∀ p : ClaimPos, s.index.claims[p] ≠ none) → exec .ask ⟨s, q⟩ =
          .next ⟨s.decided rest none (verdict (.noindex .claimsFull)), q⟩) ∧
        (∀ p, s.FreeAt p → 8 ≤ s.sumOf (bucketIndex k) ps → exec .ask ⟨s, q⟩ =
          .next ⟨s.decided rest none (verdict (.noindex .bucketFull)), q⟩) ∧
        (∀ p, s.FreeAt p → s.sumOf (bucketIndex k) ps < 8 → exec .ask ⟨s, q⟩ =
          .next ⟨(((s.decided rest none (verdict .write)).withClaim p
            (some ⟨k, bucketIndex k, x, s.clock.now + 64, none, []⟩)).bump .claimsCreated).bump .writeVerdicts, q⟩)))

/-- COMMIT on a well-formed bucket (R11, R48, R49, R50, R18, Table 3.5). Pool 15: NOT_INDEXED. A committed key under the same
locator: INDEXED, nothing changed; under another: SUPERSEDED with the entry's locator, its count one higher unless pinned. A
claimed key, whoever writes it: the entry is installed in the lowest empty place under the locator with count 1 plus the
waiters other than the sender, the claim is removed, INDEXED to the sender and then NOTICE KNOWN to each such waiter, oldest
first. A key neither committed nor claimed: installed with count 1 and INDEXED while the bucket sum is below 8, else
NOT_INDEXED. -/
def Obligations.CommitDecided : Prop :=
  ∀ (s : Station) (_ : s.DeadlinesActed) (q : List Instr) (x : Pair) (k : Key) (l : Locator) (rest : List WorkItem) (ps : Vector Place 8),
    s.TakesItem (.commit x k l) rest → s.Opens (bucketIndex k) ps →
    let reply (r : CommitReply) : List Answer := [⟨x, .commitReply r⟩]
    (k.pool = 15 → exec .commit ⟨s, q⟩ = .next ⟨s.decided rest none (reply .notIndexed), q⟩) ∧
    (k.pool ≠ 15 →
      (∀ i, HeldAt k ps i → ps[i].locator = l → exec .commit ⟨s, q⟩ = .next ⟨s.decided rest none (reply .indexed), q⟩) ∧
      (∀ i, HeldAt k ps i → ps[i].locator ≠ l → ps[i].count = 65535 → exec .commit ⟨s, q⟩ =
        .next ⟨s.decided rest none (reply (.superseded ps[i].locator)), q⟩) ∧
      (∀ i, HeldAt k ps i → ps[i].locator ≠ l → ps[i].count ≠ 65535 → exec .commit ⟨s, q⟩ =
        .next ⟨s.decided rest
          (writeOf (bucketIndex k) (ps.set i ⟨true, k.pool, k.fp, ps[i].locator, ps[i].count + 1⟩))
          (reply (.superseded ps[i].locator)), q⟩) ∧
      (∀ p c i ws, NotCommitted k ps → s.ClaimedAt k p c → EmptyAt ps i →
        (x ∉ c.waiters ∧ ws = c.waiters ∨ ∃ a b, c.waiters = a ++ x :: b ∧ x ∉ a ∧ ws = a ++ b) →
        exec .commit ⟨s, q⟩ = .next ⟨(s.decided rest
          (writeOf (bucketIndex k) (ps.set i ⟨true, k.pool, k.fp, l, BitVec.ofNat 16 (1 + ws.length)⟩))
          (reply .indexed ++ ws.map fun w => ⟨w, .notice (.known l)⟩)).withClaim p none, q⟩) ∧
      (∀ i, NotCommitted k ps → s.NotClaimed k → EmptyAt ps i → s.sumOf (bucketIndex k) ps < 8 →
        exec .commit ⟨s, q⟩ = .next ⟨s.decided rest
          (writeOf (bucketIndex k) (ps.set i ⟨true, k.pool, k.fp, l, 1⟩)) (reply .indexed), q⟩) ∧
      (NotCommitted k ps → s.NotClaimed k → 8 ≤ s.sumOf (bucketIndex k) ps →
        exec .commit ⟨s, q⟩ = .next ⟨s.decided rest none (reply .notIndexed), q⟩))

/-- DROP and lease expiry on a well-formed bucket (R51, R52, R54, R40). A DROP from the pair that writes its key's claim
releases the claim; any other, or one for a key not claimed, changes nothing and is counted stale. An expiry releases the
claim of R40's choice and is counted; which one became due earliest the model reads from the advance stamp that it keeps
in the due marker (assumption 17: the manual's marker is clear or set). The release promotes the oldest waiter with NOTICE WRITE, or removes the claim.

PEER-LOST and PEER-RESTARTED items (R58, R51): at every position the peer's pairs leave the waiter list, and a claim the
peer writes is promoted to its oldest waiter left, or removed where none is; NOTICE WRITE goes to each writer promoted, by
rising position, and each promotion is counted. No bucket is read or written, and nothing else changes. -/
def Obligations.ClaimsReleasedAndPassedOn : Prop :=
  (∀ (s : Station) (_ : s.DeadlinesActed) (q : List Instr) (b : Nat) (ps : Vector Place 8), s.Opens b ps →
      (∀ x k rest, s.TakesItem (.drop x k) rest → b = bucketIndex k →
        (∀ p c, s.ClaimedAt k p c → c.writer = x →
          let r := s.claimReleased p c
          exec .drop ⟨s, q⟩ = .next ⟨r.2.decided rest none r.1, q⟩) ∧
        (∀ p c, s.ClaimedAt k p c → c.writer ≠ x →
          exec .drop ⟨s, q⟩ = .next ⟨(s.decided rest none []).bump .staleDrops, q⟩) ∧
        (s.NotClaimed k → exec .drop ⟨s, q⟩ = .next ⟨(s.decided rest none []).bump .staleDrops, q⟩)) ∧
      (∀ p c n, s.TakesExpiry p c n → b = c.bucket →
        let r := (s.bump .leaseExpiries).claimReleased p c
        exec .leaseExpiry ⟨s, q⟩ = .next ⟨r.2.decided s.index.queue none r.1, q⟩)) ∧
  (∀ (s : Station) (_ : s.DeadlinesActed) (q : List Instr) (c : Instr) (peer : StationNo) (rest : List WorkItem),
      (c = .peerLost ∧ s.TakesItem (.peerLost peer) rest ∨ c = .peerRestarted ∧ s.TakesItem (.peerRestarted peer) rest) →
      ∃ t : Station, exec c ⟨s, q⟩ = .next ⟨t, q⟩ ∧
        (∀ p : ClaimPos, t.index.claims[p] = s.index.claims[p].bind (Claim.withoutPeer peer s.clock.now)) ∧
        t.index.answers = ((List.finRange 128).filterMap fun p => s.index.claims[p].bind (Claim.promotedBy peer)).map
          (fun w => ⟨w, .notice .write⟩) ∧
        (∀ k : Fin 24, t.control.counters[k] =
          if k = 8 then s.control.counters[k] + BitVec.ofNat 32 t.index.answers.length else s.control.counters[k]) ∧
        t = { s with
          index := { s.index with queue := rest, answers := t.index.answers, claims := t.index.claims }
          control := { s.control with counters := t.control.counters } })

/-- RELEASE item on a well-formed bucket (R57, R19). One whose tag, key and locator are those of the record kept for its
sender is answered with the recorded reply, and nothing else changes. Any other is decided by R19 on the bucket, written
back where that changes it, and recorded for its sender in the record's place. -/
def Obligations.ReleaseDecidedOnceAndRepeated : Prop :=
  ∀ (s : Station) (_ : s.DeadlinesActed) (q : List Instr) (x : Pair) (k : Key) (l : Locator) (rest : List WorkItem) (ps : Vector Place 8)
    (n : Fin 15), s.TakesItem (.release x k l) rest → s.Opens (bucketIndex k) ps → x.station.toNat = n.val →
    (∀ o, s.index.records[n] = some ⟨x.tag, k, l, o⟩ →
      exec .releaseItem ⟨s, q⟩ = .next ⟨s.decided rest none [⟨x, .releaseReply o⟩], q⟩) ∧
    (∀ w o, (∀ o', s.index.records[n] ≠ some ⟨x.tag, k, l, o'⟩) → ReleaseDecides k l ps w o →
      let t := s.decided rest (w.bind (writeOf (bucketIndex k))) [⟨x, .releaseReply o⟩]
      exec .releaseItem ⟨s, q⟩ =
        .next ⟨{ t with index := { t.index with records := s.index.records.set n (some ⟨x.tag, k, l, o⟩) } }, q⟩)

/-- A damaged bucket (R22, R24, R25): the operation that reads it decides as on a bucket of eight empty places, and besides
counts it, makes BUCKET_LOST ready with its index and writes the places it decides on back, whether or not they changed. -/
def Obligations.DamagedBucketTakenAsEmptyAndReported : Prop :=
  ∀ (s : Station) (_ : s.DeadlinesActed) (q : List Instr) (c : Instr) (b : Nat), s.Reads c b →
    (s.index.table.read b).wellFormed b = false →
    ∃ t : Station, ∃ w : Bucket,
      exec c ⟨{ s with index := { s.index with table := s.index.table.write b emptyBucket } }, q⟩ = .next ⟨t, q⟩ ∧
      (t.index.write = some (b, w) ∨ t.index.write = none ∧ w = emptyBucket) ∧
      exec c ⟨s, q⟩ = .next ⟨{ t.bump .bucketsLost with index := { t.index with
        table := s.index.table, ready := some (.bucketLost b), write := some (b, w) } }, q⟩

/-- BUCKET_WRITE_DONE and SCRUB_WRITE_DONE (R14, R23, R28, R186, R187, R160): the write-back is in table memory whole and
no write is in flight; a scrub write leaves its bucket empty and the next one begins, and after bucket 524,287 the
station is RUNNING with STARTED owed, flag 1, the first beacon due and the beacon deadline 16 ticks on. No other
bucket changes. -/
def Obligations.BucketWritesComplete : Prop :=
  ∀ (s : Station) (_ : s.DeadlinesActed) (q : List Instr) (b : Nat),
    (∀ k, s.index.write = some (b, k) → ∃ tbl : ShardTable, exec .bucketWriteDone ⟨s, q⟩ =
        .next ⟨{ s with index := { s.index with write := none, table := tbl } }, q⟩ ∧
      tbl.read b = k ∧ ∀ a, a ≠ b → tbl.read a = s.index.table.read a) ∧
    (s.index.scrub = some b → s.control.state = .scrub → ∃ tbl : ShardTable,
      tbl.read b = emptyBucket ∧ (∀ a, a ≠ b → tbl.read a = s.index.table.read a) ∧
      (b + 1 < 524288 → exec .scrubWriteDone ⟨s, q⟩ =
        .next ⟨{ s with index := { s.index with scrub := some (b + 1), table := tbl } }, q⟩) ∧
      (524288 ≤ b + 1 →
        let t := Station.afterBeaconDue { s with
          index := { s.index with scrub := none, table := tbl }
          roster := { s.roster with beaconDeadline := some (s.clock.now + 16) } }
        (s.control.ready = none → exec .scrubWriteDone ⟨s, q⟩ = .next ⟨{ t with control := { s.control with
          state := .running
          ready := some (.started true s.control.straps.number s.control.straps.clusterSize) } }, q⟩) ∧
        (s.control.ready ≠ none → exec .scrubWriteDone ⟨s, q⟩ =
          .next ⟨{ t with control := { s.control with state := .running, startedOwed := some true } }, q⟩)))

/-- ANSWER_HAND_ON (R23, R42, R43, R138): once the write-back is complete the next answer leaves. One to the station
itself is taken by the exchange unit just as INBOUND_DISPATCH gives it one from a frame. One to another station
becomes a frame of class 0 behind the frames of that class and before all others, where the transmit queue has a place
and R138's turn gives it to the index unit; with the queue full the index unit waits. While the write-back is in
flight the event does not arise (assumption 6). The waiting marker is the model's reading of R138 (assumption 7). -/
def Obligations.AnswersLeaveByTheirPath : Prop :=
  ∀ (s : Station) (_ : s.DeadlinesActed) (q : List Instr) (a : Answer) (rest : List Answer), s.index.answers = a :: rest →
    (s.index.write ≠ none → exec .answerHandOn ⟨s, q⟩ = .next ⟨s, q⟩) ∧
    (s.index.write = none →
    (∀ f : Frame, a.dest.station = s.control.straps.number → f.tag = a.dest.tag → f.body = .answer a.body →
      exec .answerHandOn ⟨s, q⟩ = exec .inboundDispatch
        ⟨{ s with
          index := { s.index with answers := rest }
          bus := { s.bus with inbound := f :: s.bus.inbound } }, q⟩) ∧
    (a.dest.station ≠ s.control.straps.number → 48 ≤ s.bus.tx.length →
      exec .answerHandOn ⟨s, q⟩ = .next ⟨{ s with bus := { s.bus with indexWaits := true } }, q⟩) ∧
    (∀ xs ys, a.dest.station ≠ s.control.straps.number → s.bus.tx.length < 48 →
      (s.pathWaits .bus = true → s.bus.indexWaits = true ∧ s.bus.txLast ≠ .index) →
      s.bus.tx = xs ++ ys → (∀ f ∈ xs, f.frame.body.cls = 0) → (∀ f ∈ ys, f.frame.body.cls ≠ 0) →
      exec .answerHandOn ⟨s, q⟩ = .next ⟨{ s with
        index := { s.index with answers := rest }
        bus := { s.bus with
          tx := xs ++ ⟨⟨s.control.straps.number, a.dest.station, a.dest.tag, .answer a.body⟩, .index, 0, .waiting⟩ :: ys
          indexWaits := false
          txLast := if s.bus.indexWaits then .index else s.bus.txLast } }, q⟩) ∧
    (a.dest.station ≠ s.control.straps.number → s.bus.tx.length < 48 → s.pathWaits .bus = true →
      (s.bus.indexWaits = false ∨ s.bus.txLast = .index) → exec .answerHandOn ⟨s, q⟩ = .next ⟨s, q⟩))

/-- WORK_QUEUE_ADMIT, and INBOUND_DISPATCH of a request (R38, R39, R148): a request at the inbound head joins the tail of
the index work queue with its sender's pair, where that holds fewer than 32 items and no source waits; at a full queue
it waits. With a place free, the queue admits the item of one waiting source, in the order bus, exchange unit, roster
from the one after the source admitted last. The waiting markers are the model's reading of R39 (assumption 7). Where
the event does not arise nothing changes (the model's choice, assumption 6). -/
def Obligations.WorkQueueAdmitsInTurn : Prop :=
  ∀ (s : Station) (_ : s.DeadlinesActed) (q : List Instr) (f : Frame) (fs : List Frame) (item : WorkItem),
    (s.bus.inbound = f :: fs →
      ((∃ k, f.body = .ask k ∧ item = .ask ⟨f.sender, f.tag⟩ k) ∨ (∃ k, f.body = .drop k ∧ item = .drop ⟨f.sender, f.tag⟩ k) ∨
        (∃ k l, f.body = .commit k l ∧ item = .commit ⟨f.sender, f.tag⟩ k l) ∨
        (∃ k l, f.body = .release k l ∧ item = .release ⟨f.sender, f.tag⟩ k l)) →
      (32 ≤ s.index.queue.length → exec .inboundDispatch ⟨s, q⟩ =
        .next ⟨{ s with bus := { s.bus with inboundWaits := true } }, q⟩) ∧
      (s.index.queue.length < 32 → (∀ src, s.sourceWaits src = false) → exec .inboundDispatch ⟨s, q⟩ =
        .next ⟨{ s with
          bus := { s.bus with inbound := fs, inboundWaits := false }
          index := { s.index with queue := s.index.queue ++ [item] } }, q⟩) ∧
      (s.index.queue.length < 32 → s.bus.inboundWaits = true →
        (∀ src, s.sourceWaits src = true →
          Source.distance s.index.admittedLast .bus ≤ Source.distance s.index.admittedLast src) →
        exec .workQueueAdmit ⟨s, q⟩ = .next ⟨{ s with
          bus := { s.bus with inbound := fs, inboundWaits := false }
          index := { s.index with queue := s.index.queue ++ [item], admittedLast := .bus } }, q⟩)) ∧
    (s.index.queue.length < 32 → s.roster.held = some item →
      (∀ src, s.sourceWaits src = true →
        Source.distance s.index.admittedLast .roster ≤ Source.distance s.index.admittedLast src) →
      exec .workQueueAdmit ⟨s, q⟩ = .next ⟨{ s with
        roster := { s.roster with held := none }
        index := { s.index with queue := s.index.queue ++ [item], admittedLast := .roster } }, q⟩) ∧
    (∀ o : Offer, s.index.queue.length < 32 → s.exchange.offerSelf = some o → s.offerStands .self o = true →
      (∀ src, s.sourceWaits src = true →
        Source.distance s.index.admittedLast .exchange ≤ Source.distance s.index.admittedLast src) →
      exec .workQueueAdmit ⟨s, q⟩ =
        .next ⟨{ s.entryDelivered o.index o.kind with index := { s.index with
          queue := s.index.queue ++ [s.itemOf o.index o.kind], admittedLast := .exchange } }, q⟩) ∧
    ((32 ≤ s.index.queue.length ∨ ∀ src, s.sourceWaits src = false) → exec .workQueueAdmit ⟨s, q⟩ = .next ⟨s, q⟩)

/-! ## The exchange unit -/

/-- Answers to an ASKING or HOLDING entry, and late frames (R67, R75, R77, R94). KNOWN, in a VERDICT or a NOTICE: the slot is
RESOLVED DUP with the locator and the entry RESOLVED with it. WRITE: slot and entry are STORING, the slot indexed with its
STORE owed. HOLD to an ASKING entry: both HOLDING, hold deadline now + 160. NOINDEX to an ASKING entry: the slot is stored
unindexed with the reason, counted, and the entry freed. Any other answer to it, and any answer whose tag names an entry that
is FREE, closing, of another round, STORING or RESOLVED, changes nothing but the count of late frames. -/
def Obligations.LookupAnswersTaken : Prop :=
  ∀ (s : Station) (_ : s.DeadlinesActed) (q : List Instr) (f : Frame) (fs : List Frame) (a : AnswerBody) (i : EntryIndex),
    s.AnswerHead f fs a i →
    let e := s.entry i
    let t := s.inboundTaken fs
    let late := exec .inboundDispatch ⟨s, q⟩ = .next ⟨t.counted 5, q⟩
    (¬s.Accepts f i → late) ∧
    (s.Accepts f i → e.state = .storing ∨ e.state = .resolved → late) ∧
    (s.Accepts f i → e.state = .asking ∨ e.state = .holding →
      (∀ l, a = .verdict (.known l) ∨ a = .notice (.known l) → exec .inboundDispatch ⟨s, q⟩ =
        .next ⟨(t.moveSlot e.binding fun y => { y with state := .resolved .dup, locator := some l }).setEntry i
          { e.into .resolved with locator := some l }, q⟩) ∧
      (a = .verdict .write ∨ a = .notice .write → exec .inboundDispatch ⟨s, q⟩ =
        .next ⟨(t.moveSlot e.binding fun y => { y with state := .storing none true }).setEntry i (e.into .storing), q⟩) ∧
      ((∃ r, a = .commitReply r) ∨ (∃ o, a = .releaseReply o) → late)) ∧
    (s.Accepts f i → e.state = .asking →
      (a = .verdict .hold → exec .inboundDispatch ⟨s, q⟩ =
        .next ⟨(t.moveSlot e.binding fun y => { y with state := .holding }).setEntry i
          { e.into .holding with deadline := some (.hold, s.clock.now + 160) }, q⟩) ∧
      (∀ r r', (r, r') ∈ [(NoindexReason.waitersFull, Reason.waitersFull), (.claimsFull, .claimsFull),
          (.bucketFull, .bucketFull), (.poolIsolated, .poolIsolated)] →
        a = .verdict (.noindex r) → exec .inboundDispatch ⟨s, q⟩ =
          .next ⟨(t.slotUnindexed r' e.binding).setEntry i e.freedOrOwing, q⟩)) ∧
    (s.Accepts f i → e.state = .holding → a = .verdict .hold ∨ (∃ r, a = .verdict (.noindex r)) → late)

/-- Answers to a COMMITTING or RELEASING entry (R79, R81, R82). INDEXED: the slot is RESOLVED NEW with its own locator,
the entry RESOLVED. SUPERSEDED: the slot is RESOLVED DUP with the locator of the reply, which the entry takes, and
RECLAIM of the entry's own one is owed. NOT_INDEXED: the slot is RESOLVED UNINDEXED with its own locator, counted, and
the entry freed. A RELEASE-REPLY leaves a host release with RELEASED of its outcome owed; a compensation with RECLAIM
owed where it says RETIRED, and freed otherwise. Any other answer is a late frame. That RECLAIM for RETIRED replaces
one still owed is the model's choice (assumption 13). -/
def Obligations.CommitAndReleaseAnswersTaken : Prop :=
  ∀ (s : Station) (_ : s.DeadlinesActed) (q : List Instr) (f : Frame) (fs : List Frame) (a : AnswerBody) (i : EntryIndex),
    s.AnswerHead f fs a i → s.Accepts f i →
    let e := s.entry i
    let own := e.locator.getD 0
    let t := s.inboundTaken fs
    (e.state = .committing →
      (a = .commitReply .indexed → exec .inboundDispatch ⟨s, q⟩ =
        .next ⟨(t.moveSlot e.binding fun y => { y with state := .resolved .new, locator := some own }).setEntry i
          (e.into .resolved), q⟩) ∧
      (∀ m, a = .commitReply (.superseded m) → exec .inboundDispatch ⟨s, q⟩ =
        .next ⟨(t.moveSlot e.binding fun y => { y with state := .resolved .dup, locator := some m }).setEntry i
          { e.into .resolved with owed := some (.reclaim own), locator := some m }, q⟩) ∧
      (a = .commitReply .notIndexed → exec .inboundDispatch ⟨s, q⟩ =
        .next ⟨((t.moveSlot e.binding fun y =>
          { y with state := .resolved (.unindexed .notIndexed), locator := some own }).counted 20).setEntry i
            e.freedOrOwing, q⟩) ∧
      ((∀ r, a ≠ .commitReply r) → exec .inboundDispatch ⟨s, q⟩ = .next ⟨t.counted 5, q⟩)) ∧
    (e.state = .releasing →
      (∀ o, a = .releaseReply o →
        (e.kind = .hostRelease → exec .inboundDispatch ⟨s, q⟩ =
          .next ⟨t.setEntry i (e.owing (.released (.reply o))), q⟩) ∧
        (e.kind = .compensation → o = .retired → exec .inboundDispatch ⟨s, q⟩ =
          .next ⟨t.setEntry i (e.owing (.reclaim own)), q⟩) ∧
        (e.kind = .compensation → o ≠ .retired → exec .inboundDispatch ⟨s, q⟩ =
          .next ⟨t.setEntry i e.freedOrOwing, q⟩)) ∧
      ((∀ o, a ≠ .releaseReply o) → exec .inboundDispatch ⟨s, q⟩ = .next ⟨t.counted 5, q⟩))

/-- Answers to an orphan (R85, R86, R87, Tables 4.5 and 4.6). Origin ASK or HOLD: KNOWN makes it a compensation RELEASE of
the locator, WRITE leaves it to hand on a DROP; to origin ASK alone, HOLD makes it origin HOLD with a new orphan hold,
and NOINDEX frees it. Origin DOUBT-COMMIT: SUPERSEDED makes it a compensation RELEASE of the reply's locator, INDEXED
and NOT_INDEXED free it. Origin ABORT-COMMIT: INDEXED makes it a compensation RELEASE of its own locator, SUPERSEDED
one of the reply's locator that owes RECLAIM of its own, NOT_INDEXED owes RECLAIM of its own. Any other answer is a
late frame. That an entry's new report replaces one it still owes is the model's choice (assumption 13). -/
def Obligations.OrphanAnswersCompensated : Prop :=
  ∀ (s : Station) (_ : s.DeadlinesActed) (q : List Instr) (f : Frame) (fs : List Frame) (a : AnswerBody) (i : EntryIndex) (o : Origin),
    s.AnswerHead f fs a i → s.Accepts f i → (s.entry i).state = .orphan o →
    let e := s.entry i
    let own := e.locator.getD 0
    let t := s.inboundTaken fs
    let becomes (e' : Entry) := exec .inboundDispatch ⟨s, q⟩ = .next ⟨t.setEntry i e', q⟩
    let late := exec .inboundDispatch ⟨s, q⟩ = .next ⟨t.counted 5, q⟩
    (o = .ask ∨ o = .hold →
      (∀ l, a = .verdict (.known l) ∨ a = .notice (.known l) → becomes (e.compensationFor l)) ∧
      (a = .verdict .write ∨ a = .notice .write → becomes e.dropping) ∧
      (a = .verdict .hold → if o = .ask then becomes (e.orphanOf .hold s.clock.now) else late) ∧
      (∀ r, a = .verdict (.noindex r) → if o = .ask then becomes e.freedOrOwing else late) ∧
      ((∃ r, a = .commitReply r) ∨ (∃ r, a = .releaseReply r) → late)) ∧
    (o = .doubtCommit →
      (∀ m, a = .commitReply (.superseded m) → becomes (e.compensationFor m)) ∧
      (a = .commitReply .indexed ∨ a = .commitReply .notIndexed → becomes e.freedOrOwing) ∧
      ((∀ r, a ≠ .commitReply r) → late)) ∧
    (o = .abortCommit →
      (a = .commitReply .indexed → becomes (e.compensationFor own)) ∧
      (∀ m, a = .commitReply (.superseded m) → becomes { e.compensationFor m with owed := some (.reclaim own) }) ∧
      (a = .commitReply .notIndexed → becomes (e.owing (.reclaim own))) ∧
      ((∀ r, a ≠ .commitReply r) → late))

/-- TAG_GRANT (R64, R69, R70): the head of the tag wait queue takes the lowest FREE entry, its round one higher. A lookup
whose owner is SERVING makes it ASKING, bound to the slot, which is ASKING too, with a PENDING ASK at attempt 1; where
the owner is not SERVING the slot is stored unindexed OWNER_ABSENT, counted, and no entry is used. A host release
makes it RELEASING with a PENDING RELEASE at attempt 1, or, toward an owner not SERVING, closing with RELEASED
UNDELIVERED owed. With no request waiting or no entry FREE nothing changes. The last is the model's choice (assumption
6). -/
def Obligations.TagsGrantedInOrder : Prop :=
  ∀ (s : Station) (_ : s.DeadlinesActed) (q : List Instr) (r : TagRequest) (rest : List TagRequest) (i : EntryIndex),
    (s.exchange.waitQueue = r :: rest → (s.entry i).state = .free →
      (∀ j : EntryIndex, j.val < i.val → (s.entry j).state ≠ .free) →
      let t : Station := { s with exchange := { s.exchange with waitQueue := rest } }
      let e : Entry := { round := (s.entry i).round + 1, attempts := 1 }
      (∀ l seq k p, r = .lookup l seq k p → s.Serves p → exec .tagGrant ⟨s, q⟩ =
        .next ⟨(t.moveSlot (some ⟨l, seq⟩) fun y => { y with state := .asking }).setEntry i { e with
          state := .asking, kind := .askExchange, owner := p, key := k, binding := some ⟨l, seq⟩
          request := some (.ask, .pending) }, q⟩) ∧
      (∀ l seq k p, r = .lookup l seq k p → ¬s.Serves p → exec .tagGrant ⟨s, q⟩ =
        .next ⟨t.slotUnindexed .ownerAbsent (some ⟨l, seq⟩), q⟩) ∧
      (∀ k loc cookie p, r = .hostRelease k loc cookie p → s.Serves p → exec .tagGrant ⟨s, q⟩ =
        .next ⟨t.setEntry i { e with
          state := .releasing, kind := .hostRelease, owner := p, key := k, locator := some loc, cookie := some cookie
          request := some (.release, .pending) }, q⟩) ∧
      (∀ k loc cookie p, r = .hostRelease k loc cookie p → ¬s.Serves p → exec .tagGrant ⟨s, q⟩ =
        .next ⟨t.setEntry i { e with
          state := .releasing, kind := .hostRelease, owner := p, key := k, locator := some loc, cookie := some cookie
          owed := some (.released .undelivered), closing := true }, q⟩)) ∧
    (s.exchange.waitQueue = [] ∨ (∀ j, (s.entry j).state ≠ .free) → exec .tagGrant ⟨s, q⟩ = .next ⟨s, q⟩)

/-- REQUEST_HAND_ON by the self path (R71, R39): the path's next request joins the index work queue where that holds fewer
than 32 items and no source waits, and is DELIVERED; a closing entry that owes no report is freed with its DROP. At a
full queue the request is offered and waits. With no request for the path nothing changes.

REQUEST_HAND_ON by the bus path (R71, R138): the path's next request becomes a frame of its class behind the frames of
its own class and lower ones and before the others, where the transmit queue holds fewer than 48 frames and R138's
turn gives the exchange unit the place, and is SENT; a closing entry that owes no report is freed with its DROP. At a
full queue the request is offered and waits. With no request for the path nothing changes. That nothing changes where
the event does not arise is the model's choice (assumption 6), and that an offer is recorded at a full queue its
reading of R39 and R138 (assumption 7). -/
def Obligations.RequestsHandedOnByPath : Prop :=
  (∀ (s : Station) (_ : s.DeadlinesActed) (q : List Instr) (i : EntryIndex) (kind : RequestKind) (phase : Phase),
      (s.HandsOnNext .self i → (s.entry i).request = some (kind, phase) →
        (s.index.queue.length < 32 → (∀ src, s.sourceWaits src = false) → exec (.requestHandOn .self) ⟨s, q⟩ =
          .next ⟨{ s.entryDelivered i kind with
            index := { s.index with queue := s.index.queue ++ [s.itemOf i kind] } }, q⟩) ∧
        (32 ≤ s.index.queue.length → exec (.requestHandOn .self) ⟨s, q⟩ =
          .next ⟨{ s with exchange := { s.exchange with offerSelf := some ⟨i, (s.entry i).round, kind⟩ } }, q⟩)) ∧
      ((∀ j, ¬s.PendingOn .self j) → exec (.requestHandOn .self) ⟨s, q⟩ = .next ⟨s, q⟩)) ∧
  (∀ (s : Station) (_ : s.DeadlinesActed) (q : List Instr) (i : EntryIndex) (kind : RequestKind) (phase : Phase),
      (s.HandsOnNext .bus i → (s.entry i).request = some (kind, phase) →
        (∀ xs ys, s.bus.tx.length < 48 → (s.bus.indexWaits = true → s.pathWaits .bus = true ∧ s.bus.txLast ≠ .exchange) →
          s.bus.tx = xs ++ ys →
          (∀ f ∈ xs, f.frame.body.cls ≤ if kind = .ask then 2 else 1) →
          (∀ f ∈ ys, ¬f.frame.body.cls ≤ if kind = .ask then 2 else 1) →
          exec (.requestHandOn .bus) ⟨s, q⟩ = .next ⟨{ s with
            exchange := { s.exchange with
              entries := s.exchange.entries.set i ((s.entry i).afterHandOn kind .sent), nextBus := i + 1, offerBus := none }
            bus := { s.bus with
              tx := xs ++ ⟨s.frameOf i kind, .exchange, 0, .waiting⟩ :: ys
              txLast := if s.pathWaits .bus then .exchange else s.bus.txLast } }, q⟩) ∧
        (48 ≤ s.bus.tx.length → exec (.requestHandOn .bus) ⟨s, q⟩ =
          .next ⟨{ s with exchange := { s.exchange with offerBus := some ⟨i, (s.entry i).round, kind⟩ } }, q⟩) ∧
        (s.bus.tx.length < 48 → s.bus.indexWaits = true → (s.pathWaits .bus = false ∨ s.bus.txLast = .exchange) →
          exec (.requestHandOn .bus) ⟨s, q⟩ = .next ⟨s, q⟩)) ∧
      ((∀ j, ¬s.PendingOn .bus j) → exec (.requestHandOn .bus) ⟨s, q⟩ = .next ⟨s, q⟩))

/-- EXCHANGE_REPORT_READY (R83, R12): where no report is held and no host RELEASE of pool 15 waits at the head of the
command FIFO, the first entry that owes a report, searched from the index after the one served last and wrapping, has
it made ready with the entry's key or with its locator and cookie, lane 0; a closing entry with no request left is
then freed, any other owes it no more. Where the event does not arise nothing changes (the model's choice, assumption
6). -/
def Obligations.OwedReportsMadeReadyInTurn : Prop :=
  ∀ (s : Station) (_ : s.DeadlinesActed) (q : List Instr) (i : EntryIndex) (o : OwedReport), s.exchange.ready = none →
    (∀ e rest, s.HeadIs 13 e rest → s.control.state = .running → (e.arg 6).extractLsb' 0 16 ++ e.arg 5 ≠ 0#48 →
      (e.arg 0).extractLsb' 0 4 = 15#4 → exec .exchangeReportReady ⟨s, q⟩ = .next ⟨s, q⟩) ∧
    ((∀ e rest, s.HeadIs 13 e rest → s.control.state = .running → (e.arg 6).extractLsb' 0 16 ++ e.arg 5 = 0#48 ∨
        (e.arg 0).extractLsb' 0 4 ≠ 15#4) →
      ((s.entry i).owed = some o →
        (∀ j : EntryIndex, (j - s.exchange.nextReport).val < (i - s.exchange.nextReport).val → (s.entry j).owed = none) →
        let e := s.entry i
        let r : Report := match o with
          | .reclaim l => .reclaim 0 e.key l
          | .doubt l => .doubt 0 e.key l
          | .released x => .released x (e.locator.getD 0) (e.cookie.getD 0)
        let e' : Entry := if e.closing = true ∧ e.request = none then { round := e.round, state := .free }
          else { e with owed := none }
        exec .exchangeReportReady ⟨s, q⟩ = .next ⟨{ s with exchange := { s.exchange with
          entries := s.exchange.entries.set i e', ready := some r, nextReport := i + 1 } }, q⟩) ∧
      ((∀ j, (s.entry j).owed = none) → exec .exchangeReportReady ⟨s, q⟩ = .next ⟨s, q⟩))

/-- Deadlines of entries acted on (R73, R76, R77, R79, R81, R82, R84, R88). The answer deadline of an ASKING or COMMITTING
entry is one failed attempt more; of a RELEASING one it gives the RELEASE up as UNCERTAIN. The hold deadline stores
the slot unindexed HOLD_EXPIRED, counted, and leaves an orphan of origin HOLD. The orphan hold deadline leaves an
orphan of origin ABORT-COMMIT with DOUBT of its own locator owed and frees any other. Nothing happens for a deadline
that is not among those reached (the model's list of assumption 5).

Deadlines of claims, peers and the beacon acted on (R53, R156, R160): a claim's due marker is set, with the number of the
advance as the model's stamp (assumption 17); a SERVING peer's silence marker is set; the beacon deadline moves on by 16
and a beacon falls due. The list of deadlines reached, and that nothing happens for one not on it, are the model's
(assumptions 5 and 6).

Whatever is still on the list is acted on before any other command (R164, R165; assumption 5): to run such a command, or an
idle step, is to run first the row of the deadline that heads the list, or to drop it where it is no longer reached. -/
def Obligations.DeadlinesActedOnce : Prop :=
  (∀ (s : Station) (q : List Instr) (i : EntryIndex),
      let e := s.entry i
      let t := s.deadlineTaken (.entry i)
      (s.EntryDue .answer i →
        (e.state = .asking ∨ e.state = .committing → exec (.answerDeadline i) ⟨s, q⟩ = .next ⟨t.exchangeFailed i, q⟩) ∧
        (e.state = .releasing → e.kind ≠ .askExchange →
          exec (.answerDeadline i) ⟨s, q⟩ = .next ⟨t.releaseGivenUp .uncertain i, q⟩)) ∧
      (s.EntryDue .hold i → e.state = .holding → exec (.holdDeadline i) ⟨s, q⟩ =
        .next ⟨(t.slotUnindexed .holdExpired e.binding).setEntry i (e.orphanOf .hold s.clock.now), q⟩) ∧
      (s.EntryDue .orphanHold i →
        (e.state = .orphan .abortCommit → exec (.orphanHoldDeadline i) ⟨s, q⟩ =
          .next ⟨t.setEntry i (e.owing (.doubt (e.locator.getD 0))), q⟩) ∧
        (∀ o, o ≠ .abortCommit → e.state = .orphan o → exec (.orphanHoldDeadline i) ⟨s, q⟩ =
          .next ⟨t.setEntry i e.freedOrOwing, q⟩)) ∧
      (Deadline.entry i ∉ s.clock.reached →
        ∀ c ∈ [Instr.answerDeadline i, .holdDeadline i, .orphanHoldDeadline i], exec c ⟨s, q⟩ = .next ⟨s, q⟩)) ∧
  (∀ (s : Station) (q : List Instr),
      (∀ p c, Deadline.claim p ∈ s.clock.reached → s.index.claims[p] = some c → c.due = none →
        (s.clock.now - c.deadline).toNat < 32768 → exec (.leaseDeadline p) ⟨s, q⟩ =
          .next ⟨(s.deadlineTaken (.claim p)).withClaim p (some { c with due := some s.clock.advances }), q⟩) ∧
      (∀ p, Deadline.peer p ∈ s.clock.reached → (s.peer p).state = .serving → (s.peer p).silence = false →
        (s.clock.now - ((s.peer p).lastHeard + 48)).toNat < 32768 → exec (.silenceDeadline p) ⟨s, q⟩ =
          .next ⟨(s.deadlineTaken (.peer p)).setPeer p { s.peer p with silence := true }, q⟩) ∧
      (∀ d, Deadline.beacon ∈ s.clock.reached → s.roster.beaconDeadline = some d → (s.clock.now - d).toNat < 32768 →
        exec .beaconDue ⟨s, q⟩ = .next ⟨Station.afterBeaconDue { s.deadlineTaken .beacon with
          roster := { s.roster with beaconDeadline := some (d + 16) } }, q⟩)) ∧
  (∀ (s : Station) (q : List Instr) (d : Deadline) (ds : List Deadline), s.clock.reached = d :: ds →
      (∀ r t, Deadline.Row d r → exec r ⟨s, q⟩ = .next t →
        (∀ c, (∀ d', ¬Deadline.Row d' c) → exec c ⟨s, q⟩ = exec c t) ∧ step ⟨s, []⟩ = step ⟨t.station, []⟩) ∧
      (∀ i, d = .entry i → (∀ k v, (s.entry i).deadline = some (k, v) → 32768 ≤ (s.clock.now - v).toNat) →
        ∀ c, (∀ d', ¬Deadline.Row d' c) →
          exec c ⟨s, q⟩ = exec c ⟨{ s with clock := { s.clock with reached := ds } }, q⟩))

/-! ## The index bus -/

/-- The cells of a frame and what a receiver reads (R136, R137, R146, Tables 7.1 to 7.3): from class to check a frame is
class, sender, type, destination, tag, body and the CRC-16 of type to body, each field most significant bit first (the code
itself is written out in KeysAndBucketsFollowTheirRules); a receiver reads cells as a frame exactly where they are the cells
of a well-formed frame, and then reads that frame. -/
def Obligations.FramesReadBackAsSent : Prop :=
  (∀ f : Frame,
    let covered := cellsOf 4 f.body.onLine.1 ++ cellsOf 4 f.dest.toNat ++ cellsOf 12 f.tag.toNat ++ f.body.onLine.2
    f.cells = cellsOf 2 f.body.cls.toNat ++ cellsOf 4 f.sender.toNat ++ covered ++ cellsOf 16 (crc16 covered).toNat) ∧
  (∀ (cells : List Bool) (f : Frame), parseFrame cells = some f ↔ cells = f.cells ∧ f.Proper)

/-- CONTENTION and YIELD_CLEAR (R135, R139, R140, R142): a RUNNING station with a frame queued, none of its own on the
line and the yield state clear contends after an idle gap of two idle cells with the first frame of its queue. It wins
unless a rival's precedence value is lower, and its frame is then on the line. Where the lowest rival is lower, it
loses at the first cell in which the two values differ and stops there, the queue unchanged. In any other state it
does not contend. Eight idle cells in a row clear the yield state, fewer leave it. That CONTENTION then changes
nothing is the model's choice (assumption 6); the cells a station drives stand in the model's own field `sentCells`
(assumption 11). -/
def Obligations.LowestPrecedenceWinsTheLine : Prop :=
  ∀ (s : Station) (_ : s.DeadlinesActed) (q : List Instr) (idle : Nat) (rivals : List (BitVec 6)),
    (∀ x xs, s.bus.tx = x :: xs → s.control.state = .running → s.bus.yield = false → 2 ≤ idle →
      (∀ y ∈ s.bus.tx, y.mark = .waiting) →
      ((∀ r ∈ rivals, x.frame.value ≤ r.toNat) → exec (.contention idle rivals) ⟨s, q⟩ =
        .next ⟨{ s with bus := { s.bus with
          tx := { x with mark := .onLine } :: xs, sentCells := x.frame.cells } }, q⟩) ∧
      (∀ r ∈ rivals, (∀ r' ∈ rivals, r.toNat ≤ r'.toNat) → r.toNat < x.frame.value → ∃ cell, cell < 6 ∧
        x.frame.value / 2 ^ (6 - cell) = r.toNat / 2 ^ (6 - cell) ∧
        x.frame.value.testBit (5 - cell) = true ∧ r.toNat.testBit (5 - cell) = false ∧
        exec (.contention idle rivals) ⟨s, q⟩ =
          .next ⟨{ s with bus := { s.bus with sentCells := x.frame.cells.take (cell + 1) } }, q⟩)) ∧
    (s.bus.tx = [] ∨ s.control.state ≠ .running ∨ s.bus.yield = true ∨ idle < 2 ∨ (∃ y ∈ s.bus.tx, y.mark ≠ .waiting) →
      exec (.contention idle rivals) ⟨s, q⟩ = .next ⟨s, q⟩) ∧
    (8 ≤ idle → exec (.yieldClear idle) ⟨s, q⟩ = .next ⟨{ s with bus := { s.bus with yield := false } }, q⟩) ∧
    (idle < 8 → exec (.yieldClear idle) ⟨s, q⟩ = .next ⟨s, q⟩)

/-- ATTEMPT_END (R141, R142, R144, R150): the attempt of the frame on the line is aborted at the first cell after
precedence sent recessive and read dominant; else it is complete where the acknowledge cell reads dominant or the
frame is a BEACON. A complete frame leaves the queue, is counted sent and its producer told. A failed attempt of a
frame that a purge named removes it, untold; any other stays in its place with its count one higher, or with three
failed attempts already leaves, is counted as a send failure and its producer told. The yield state is set whatever
the outcome. The model's own field `sentCells` keeps the cells driven (assumption 11). -/
def Obligations.AttemptsEndByRule : Prop :=
  ∀ (s : Station) (_ : s.DeadlinesActed) (q : List Instr) (levels : List Bool) (ack : Bool) (xs ys : List TxFrame) (x : TxFrame),
    s.bus.tx = xs ++ x :: ys → (∀ y ∈ xs ++ ys, y.mark = .waiting) → x.mark ≠ .waiting →
    ∀ (ok : Bool) (sent : List Bool),
      let bad (k : Nat) : Prop := (x.frame.cells[6 + k]? = some true ∧ levels[k]? = some false)
      ((∀ k, ¬bad k) ∧ sent = s.bus.sentCells ∧ (ok = true ↔ ack = true ∨ x.frame.dest = 15) ∨
        ok = false ∧ ∃ k, bad k ∧ (∀ j, j < k → ¬bad j) ∧ sent = x.frame.cells.take (k + 7)) →
      let t (tx : List TxFrame) : Station := { s with bus := { s.bus with yield := true, sentCells := sent, tx := tx } }
      let ends (t' : Station) := exec (.attemptEnd levels ack) ⟨s, q⟩ = .next ⟨t', q⟩
      (ok = true → ends (((t (xs ++ ys)).counted 0).outcomeTold x true)) ∧
      (ok = false → x.mark = .onLinePurged → ends (t (xs ++ ys))) ∧
      (ok = false → x.mark = .onLine → x.attempts < 3 →
        ends (t (xs ++ { x with attempts := x.attempts + 1, mark := .waiting } :: ys))) ∧
      (ok = false → x.mark = .onLine → 3 ≤ x.attempts → ends (((t (xs ++ ys)).counted 4).outcomeTold x false))

/-- FRAME_RECEIVED and FRAME_ABANDONED (R135, R142, R143, R146, R147, R155, R159): a RUNNING station with no frame of its
own on the line receives a frame that follows an idle gap. One it abandons, or cannot read as a well-formed frame, is
a check failure; a sender number not below the cluster size, or its own number, a conflict, the latter owing a report.
A good frame is a sign of life from its sender; a beacon, and a frame addressed to the station, joins the inbound
queue's tail and is counted received, or with 16 frames there is refused and counted so; the station acknowledges only
a frame addressed to itself that it places. A frame carried to its acknowledge cell clears the yield state. Whether
the acknowledge was driven stands in the model's own field `ackDriven` (assumption 11). Where the event does not arise
nothing changes (the model's choice, assumption 6). That the idle cells before the frame are counted from the station's
entry to RUNNING, so that a frame on the line then is not received (R151), is what the operand means (assumption 28). -/
def Obligations.ReceivedFramesPlaced : Prop :=
  ∀ (s : Station) (_ : s.DeadlinesActed) (q : List Instr) (idle : Nat) (cells : List Bool),
    let hears := s.control.state = .running ∧ 2 ≤ idle ∧ ∀ y ∈ s.bus.tx, y.mark = .waiting
    let t (drive : Bool) : Station := { s with bus := { s.bus with yield := false, ackDriven := drive } }
    let leads (t' : Station) := exec (.frameReceived idle cells) ⟨s, q⟩ = .next ⟨t', q⟩
    (¬hears → leads s ∧ exec (.frameAbandoned idle) ⟨s, q⟩ = .next ⟨s, q⟩) ∧
    (hears → exec (.frameAbandoned idle) ⟨s, q⟩ = .next ⟨s.counted 2, q⟩) ∧
    (hears → parseFrame cells = none → leads ((t false).counted 2)) ∧
    (∀ f, hears → parseFrame cells = some f →
      (s.control.straps.clusterSize.toNat ≤ f.sender.toNat → leads ((t false).counted 22)) ∧
      (f.sender.toNat < s.control.straps.clusterSize.toNat → f.sender = s.control.straps.number →
        leads (((t false).counted 22).conflictFound .ownNumber)) ∧
      (f.sender.toNat < s.control.straps.clusterSize.toNat → f.sender ≠ s.control.straps.number →
        (f.dest ≠ 15 → f.dest ≠ s.control.straps.number → leads ((t false).heardFrom f.sender)) ∧
        (f.dest = 15 ∨ f.dest = s.control.straps.number →
          (16 ≤ s.bus.inbound.length → leads (((t false).heardFrom f.sender).counted 3)) ∧
          (s.bus.inbound.length < 16 → leads
            ((({ t (decide (f.dest ≠ 15)) with bus := { s.bus with
              yield := false, ackDriven := decide (f.dest ≠ 15), inbound := s.bus.inbound ++ [f] } }
                : Station).heardFrom f.sender).counted 1)))))

/-! ## The roster -/

/-- PEER_JOIN (R154, R155): the roster's first duty is the change of a peer with its heard marker set. The peer is
SERVING, its heard and beacon-seen markers clear; PEER JOINED for a peer that was ABSENT, RETURNED for a SILENT one,
is ready; the next search begins behind it.

PEER_SILENT (R154, R156, R91, R149, Table 4.8): the roster's first duty is the change of a peer with its silence
marker set. The peer is SILENT, its silence and beacon-seen markers clear; the exchange unit cleans up toward it, the
bus interface purges it, the PEER-LOST item is given to the index unit, and PEER SILENT is ready.

CONFLICT_REPORT (R154, R159): where the roster holds no report and no PEER item, an owed conflict report is made
ready, for the own number under OWN_NUMBER and for the peer with the size heard under CLUSTER_SIZE, and the conflict
flag is set, so that a later conflict owes no report. Where the event does not arise nothing changes (the model's
choice, assumption 6). That the PEER-LOST item is held while another source waits, although the index work queue has
room, is the model's reading of R39 (assumption 7). -/
def Obligations.RosterChangesInTurn : Prop :=
  (∀ (s : Station) (_ : s.DeadlinesActed) (q : List Instr) (n : Fin 15), s.TakesChange n → s.roster.peers[n].heard = true →
      exec .peerJoin ⟨s, q⟩ = .next ⟨{ s with roster := { s.roster with
        peers := s.roster.peers.set n { s.roster.peers[n] with state := .serving, heard := false, beaconSeen := false }
        next := n + 1
        ready := some (.peer (if s.roster.peers[n].state = .absent then .joined else .returned) (BitVec.ofNat 4 n.val)) } }, q⟩) ∧
  (∀ (s : Station) (_ : s.DeadlinesActed) (q : List Instr) (n : Fin 15), s.TakesChange n → s.roster.peers[n].heard = false → s.EntriesSound →
      let u : Station := { s with roster := { s.roster with
        peers := s.roster.peers.set n { s.roster.peers[n] with state := .silent, silence := false, beaconSeen := false }
        next := n + 1 } }
      ∃ t : Station, u.PeerCleaned t false (BitVec.ofNat 4 n.val) ∧
        exec .peerSilent ⟨s, q⟩ = .next ⟨{ t with roster := { t.roster with
          ready := some (.peer .silent (BitVec.ofNat 4 n.val)) } }, q⟩) ∧
  (∀ (s : Station) (_ : s.DeadlinesActed) (q : List Instr), s.roster.ready = none → s.roster.held = none →
      (s.roster.conflictOwed = none → exec .conflictReport ⟨s, q⟩ = .next ⟨s, q⟩) ∧
      (s.roster.conflictOwed = some .ownNumber → exec .conflictReport ⟨s, q⟩ = .next ⟨{ s with roster := { s.roster with
        conflictOwed := none
        conflictFlag := true
        ready := some (.peer .conflictOwnNumber s.control.straps.number) } }, q⟩) ∧
      (∀ p size, s.roster.conflictOwed = some (.clusterSize p size) → exec .conflictReport ⟨s, q⟩ =
        .next ⟨{ s with roster := { s.roster with
          conflictOwed := none
          conflictFlag := true
          ready := some (.peer (.conflictClusterSize size) p) } }, q⟩))

/-- BEACON_TAKEN, and INBOUND_DISPATCH of a beacon, which is the same event (R154, R157, R158, R159, R92, Table 4.9;
assumption 16). A beacon with another cluster size is counted a conflict, whose report is owed unless the conflict flag is
set. From a peer that is not SERVING it says nothing more. The first one from a SERVING peer sets its beacon-seen marker. A
later one with the fresh marker is a restart: the exchange unit cleans up, the bus interface purges, the PEER-RESTARTED item
is given to the index unit and PEER RESTARTED is ready. A later one without it changes nothing. That the item is held while
another source waits, although the index work queue has room, is the model's reading of R39 (assumption 7). -/
def Obligations.BeaconsTakenByTheRoster : Prop :=
  ∀ (s : Station) (_ : s.DeadlinesActed) (q : List Instr) (f : Frame) (fs : List Frame) (fresh : Bool) (size : BitVec 4),
    s.TakesBeacon f fs fresh size →
    let t := s.inboundTaken fs
    let r := s.peer f.sender
    let leads (t' : Station) := exec .beaconTaken ⟨s, q⟩ = .next ⟨t', q⟩
    exec .inboundDispatch ⟨s, q⟩ = exec .beaconTaken ⟨s, q⟩ ∧
    (size ≠ s.control.straps.clusterSize → leads ((t.counted 22).conflictFound (.clusterSize f.sender size))) ∧
    (size = s.control.straps.clusterSize → r.state ≠ .serving → leads t) ∧
    (size = s.control.straps.clusterSize → r.state = .serving → r.beaconSeen = false →
      leads (t.setPeer f.sender { r with beaconSeen := true })) ∧
    (size = s.control.straps.clusterSize → r.state = .serving → r.beaconSeen = true → fresh = false → leads t) ∧
    (size = s.control.straps.clusterSize → r.state = .serving → r.beaconSeen = true → fresh = true → s.EntriesSound →
      ∃ u : Station, t.PeerCleaned u true f.sender ∧
        leads { u with roster := { u.roster with ready := some (.peer .restarted f.sender) } })

/-! ## The chunker -/

/-- The rolling hash (R97, R98): a byte advances a context by R98's formula; and after any bytes from a fresh context the
position is their number, the history their last 48, the digest state all of them, and the hash the polynomial of the last
48 bytes alone, the newest with power 0. -/
def Obligations.HashIsOfTheLast48Bytes : Prop :=
  (∀ (c : Context) (b : Byte), c.feed b = c.after b) ∧
  (∀ bytes : List Byte,
    let c := bytes.foldl Context.after ⟨0, 0, [], []⟩
    c.n = bytes.length ∧ c.history = bytes.drop (bytes.length - 48) ∧ c.absorbed = bytes.reverse ∧
    c.hash = BitVec.ofNat 32
      ((bytes.reverse.take 48).zipIdx.foldl (fun sum x => sum + x.1.toNat * 15133 ^ x.2) 0))

/-- BURST_ISSUE (R100, R101, R102, R179): where no burst is in flight, the first lane that may have one, searched from the
pointer and wrapping, has its current descriptor's next min(A/4, what is left) bytes requested, split as R179 rules,
and the pointer moves to the lane after it. With the bus master enable clear, or a range past the top of the address
space, no request is sent. With a burst in flight or no such lane nothing is issued. The enable is as the link
presents it (assumption 12), and nothing else changes where none is issued (assumption 6). That the start is reckoned
without wrap, so that one past 2^64 is out of range too (assumption 23), and that requests bear numbers (assumption
26), is the model's reading. -/
def Obligations.BurstsIssuedRoundRobin : Prop :=
  ∀ (s : Station) (_ : s.DeadlinesActed) (q : List Instr) (enable : Bool),
    let idle := exec (.burstIssue enable) ⟨s, q⟩ = .next ⟨{ s with fetch := { s.fetch with busMaster := enable } }, q⟩
    (s.chunker.burst ≠ none → idle) ∧
    ((∀ l d, ¬(s.laneAt l).MayFetch d) → idle) ∧
    (∀ l d, s.chunker.burst = none → (s.laneAt l).MayFetch d →
      (∀ k : LaneNo, (k - s.chunker.pointer).val < (l - s.chunker.pointer).val → ∀ d', ¬(s.laneAt k).MayFetch d') →
      let n := min (2048 * 2 ^ s.control.straps.averageChunk.toNat / 4) (d.length - d.consumed)
      let start := d.address.toNat + d.consumed
      let chunker := { s.chunker with burst := some ⟨l, d.seq, n, false⟩, pointer := l + 1 }
      (enable = false ∨ 2 ^ 64 < start + n → exec (.burstIssue enable) ⟨s, q⟩ = .next ⟨{ s with
        chunker := chunker
        fetch := { s.fetch with busMaster := enable, burst := some ⟨BitVec.ofNat 64 start, n, true, []⟩ } }, q⟩) ∧
      (enable = true → start + n ≤ 2 ^ 64 → ∃ rs, SplitFor s.fetch.nextRequest (BitVec.ofNat 64 start) 0 n rs ∧
        exec (.burstIssue enable) ⟨s, q⟩ = .next ⟨{ s with
          chunker := chunker
          fetch :=
            { busMaster := true
              nextRequest := s.fetch.nextRequest + rs.length
              burst := some ⟨BitVec.ofNat 64 start, n, false, rs⟩ } }, q⟩))

/-- FETCH_READ_COMPLETION and FETCH_TIMEOUT (R179, R180): good bytes take their places in a request that has not ended, which
ends good once it has them all; an error completion or a timeout ends it so. One for a request that has ended, or for none
of the burst in flight, changes nothing. That requests are named by number, that a bad part ends its request at once and
that a late or unknown completion changes nothing is the model's reading of R179 and R180 (assumption 26). -/
def Obligations.ReadRequestsEndByCompletionOrTimeout : Prop :=
  ∀ (s : Station) (_ : s.DeadlinesActed) (q : List Instr) (id offset : Nat) (data : List Byte) (good : Bool) (b : Fetch)
    (xs ys : List FetchRequest) (r : FetchRequest),
    let after (r' : FetchRequest) : State := ⟨{ s with fetch := { s.fetch with
      burst := some { b with requests := xs ++ r' :: ys } } }, q⟩
    (s.fetch.burst = some b → b.requests = xs ++ r :: ys → r.id = id → (∀ z ∈ xs ++ ys, z.id ≠ id) →
      (∀ bytes : List (Option Byte), good = true → r.result = none → bytes.length = r.data.length →
        (∀ k, k < r.data.length → bytes[k]? =
          if offset ≤ r.offset + k ∧ r.offset + k < offset + data.length then
            (data[r.offset + k - offset]?).map some else r.data[k]?) →
        exec (.fetchReadCompletion id offset data good) ⟨s, q⟩ = .next (after { r with
          data := bytes, result := if ∀ x ∈ bytes, x ≠ none then some .good else none })) ∧
      (good = false → r.result = none → exec (.fetchReadCompletion id offset data good) ⟨s, q⟩ =
        .next (after { r with result := some .error })) ∧
      (r.result = none → exec (.fetchTimeout id) ⟨s, q⟩ = .next (after { r with result := some .timeout })) ∧
      (r.result ≠ none → exec (.fetchReadCompletion id offset data good) ⟨s, q⟩ = .next ⟨s, q⟩ ∧
        exec (.fetchTimeout id) ⟨s, q⟩ = .next ⟨s, q⟩)) ∧
    ((∀ b', s.fetch.burst = some b' → ∀ z ∈ b'.requests, z.id ≠ id) →
      exec (.fetchReadCompletion id offset data good) ⟨s, q⟩ = .next ⟨s, q⟩ ∧
      exec (.fetchTimeout id) ⟨s, q⟩ = .next ⟨s, q⟩)

/-- BURST_COMPLETION (R99, R103 to R107, Table 5.2): a void burst is discarded, and so is one for a FREE lane, which can have
none but a void one (R105, R129; assumption 29); one rejected or with a request that ended
in error or timeout aborts its lane with FETCH_ERROR; otherwise its bytes are consumed in order up to the first cut or
to their end. At a cut the chunk's slot is DIGESTING and its entry joins the digest FIFO; without one the context
keeps what it consumed, and a draining lane with every queued byte consumed has its chunk cut as the last. A burst
that has not ended has no completion (assumption 6). -/
def Obligations.BurstBytesConsumedUpToTheCut : Prop :=
  ∀ (s : Station) (_ : s.DeadlinesActed) (q : List Instr) (b : Burst) (f : Fetch), s.chunker.burst = some b → s.fetch.burst = some f →
    ((f.rejected = false ∧ ∃ r ∈ f.requests, r.result = none) → exec .burstCompletion ⟨s, q⟩ = .next ⟨s, q⟩) ∧
    ((f.rejected = true ∨ ∀ r ∈ f.requests, r.result ≠ none) → b.void = true ∨ (s.laneAt b.lane).state = .free →
      exec .burstCompletion ⟨s, q⟩ = .next ⟨s.burstTaken, q⟩) ∧
    ((f.rejected = true ∨ (∀ r ∈ f.requests, r.result ≠ none) ∧ ∃ r ∈ f.requests, r.result ≠ some .good) → b.void = false →
      (s.laneAt b.lane).state ≠ .free →
      ∃ t, exec .burstCompletion ⟨s, q⟩ = .next ⟨t, q⟩ ∧ s.burstTaken.LaneAborted t b.lane .fetchError) ∧
    (∀ (bytes : List Byte) (n : Nat) (w : List Slot) (y : Slot) (x : Lane),
      f.rejected = false → (∀ r ∈ f.requests, r.result = some .good) → b.void = false →
      (s.laneAt b.lane).state ≠ .free →
      (f.requests.flatMap (·.data)) = bytes.map some → 1 ≤ n → n ≤ bytes.length →
      (s.laneAt b.lane).Consumes b.segment n w y x →
      let at_ (k : Nat) := (bytes.take k).foldl Context.after s.chunker.contexts[b.lane]
      let cuts (k : Nat) : Prop := (at_ k).CutFalls s.control.straps.averageChunk
      let done := (x.state = .closing ∨ x.state = .suspending) ∧ ∀ d ∈ x.segments, d.length ≤ d.consumed
      (∀ k, 1 ≤ k → k < n → ¬cuts k) →
      (cuts n ∨ ¬cuts n ∧ n = bytes.length ∧ done → exec .burstCompletion ⟨s, q⟩ =
        .next ⟨(s.burstTaken.withLane b.lane { x with window := w ++ [y.cutToDigesting] }).withCut b.lane y.seq (at_ n), q⟩) ∧
      (¬cuts n → n = bytes.length → ¬done → exec .burstCompletion ⟨s, q⟩ =
        .next ⟨{ s.burstTaken.withLane b.lane x with chunker := { s.burstTaken.chunker with
          contexts := s.chunker.contexts.set b.lane (at_ n) } }, q⟩))

/-- DIGEST_START and DIGEST_COMPLETION (R1, R7, R68, R94, R109, R110, R116): the idle engine takes the head of the digest
FIFO. A void completion writes nothing. Otherwise the slot takes the fingerprint of the chunk's bytes and its key is
formed with the lane's pool: pool 15 stores the slot unindexed POOL_ISOLATED, an owner not SERVING stores it unindexed
OWNER_ABSENT, both counted; else the slot is in LOOKUP and its lookup joins the tail of the tag wait queue with the
key's owner. Where the event does not arise nothing changes (the model's choice, assumption 6). -/
def Obligations.DigestsLeadToLookups : Prop :=
  ∀ (s : Station) (_ : s.DeadlinesActed) (q : List Instr),
    (∀ d ds, s.chunker.engine = none → s.chunker.digests = d :: ds → exec .digestStart ⟨s, q⟩ =
      .next ⟨{ s with chunker := { s.chunker with engine := some ⟨d, false⟩, digests := ds } }, q⟩) ∧
    (s.chunker.engine ≠ none ∨ s.chunker.digests = [] → exec .digestStart ⟨s, q⟩ = .next ⟨s, q⟩) ∧
    (∀ d, s.chunker.engine = some ⟨d, true⟩ → exec .digestCompletion ⟨s, q⟩ =
      .next ⟨{ s with chunker := { s.chunker with engine := none } }, q⟩) ∧
    (∀ d bytes, s.chunker.engine = some ⟨d, false⟩ → d.absorbed.reverse = bytes →
      let fp := Config.fingerprint bytes
      let pool := (s.laneAt d.lane).pool
      let owner := ownerOf s.control.straps.clusterSize fp
      let b : Option Binding := some ⟨d.lane, d.seq⟩
      let t : Station := { s with chunker := { s.chunker with engine := none } }.moveSlot b fun y => { y with fp := some fp }
      (pool = 15 → exec .digestCompletion ⟨s, q⟩ = .next ⟨t.slotUnindexed .poolIsolated b, q⟩) ∧
      (pool ≠ 15 → ¬s.Serves owner → exec .digestCompletion ⟨s, q⟩ = .next ⟨t.slotUnindexed .ownerAbsent b, q⟩) ∧
      (pool ≠ 15 → s.Serves owner → exec .digestCompletion ⟨s, q⟩ =
        .next ⟨{ t.moveSlot b fun y => { y with state := .lookup } with
          exchange := { s.exchange with waitQueue := s.exchange.waitQueue ++ [.lookup d.lane d.seq ⟨pool, fp⟩ owner] } }, q⟩))

end Statements
end

