-- ==== Sys2Proof/Laws/State.lean ====
section
/-! SUPPORT. The small lemmas of the state: what each named update of the station leaves in each block, by `rfl`, and what
the updates give back when read. -/
namespace Sys2Proof.Machine

/-! ### Running an effect -/

@[simp] theorem runStation_eq (f : Station → Station) (s : State) :
    runStation f s = .next { s with station := f s.station } := rfl

/-- A command runs on the station whose reached deadlines are acted on. -/
@[simp] theorem runEvent_eq (f : Station → Station) (s : State) :
    runEvent f s = .next { s with station := f s.station.settled } := rfl

/-- With no deadline waiting to be acted on, that is the station itself. -/
@[simp] theorem Station.settled_of_acted {s : Station} (h : s.clock.reached = []) : s.settled = s := by
  unfold Station.settled; rw [h]; rfl

/-- Otherwise the first deadline of the list is acted on, and then the others. -/
theorem Station.settled_cons {s : Station} {d : Deadline} {ds : List Deadline} (h : s.clock.reached = d :: ds) :
    s.settled = (({ s with clock.reached := ds } : Station).actDeadline d).settleAll ds := by
  unfold Station.settled; rw [h]; rfl

/-- A step with a command at the front of the queue is that command's effect with the rest of the queue. -/
theorem step_cons (c : Instr) (rest : List Instr) (x : Station) : step ⟨x, c :: rest⟩ = exec c ⟨x, rest⟩ := rfl

/-- A step on an empty queue is one period of the reference clock. -/
theorem step_nil (x : Station) : step ⟨x, []⟩ = .next ⟨x.settled.refclkPeriod, []⟩ := rfl

/-- What the state after reset holds, block by block. -/
@[simp] theorem State.reset_station : State.reset.station = Station.reset := rfl
@[simp] theorem State.reset_pending : State.reset.pending = [] := rfl
@[simp] theorem Station.reset_control : Station.reset.control = Control.coldReset Straps.reset := rfl
@[simp] theorem Station.reset_port : Station.reset.port = Port.reset := rfl
@[simp] theorem Station.reset_lane : Station.reset.lane = LaneUnit.reset := rfl
@[simp] theorem Station.reset_chunker : Station.reset.chunker = Chunker.reset := rfl
@[simp] theorem Station.reset_exchange : Station.reset.exchange = Exchange.reset := rfl
@[simp] theorem Station.reset_index : Station.reset.index = IndexUnit.reset ⟨[], 0⟩ := rfl
@[simp] theorem Station.reset_bus : Station.reset.bus = Bus.reset := rfl
@[simp] theorem Station.reset_roster : Station.reset.roster = Roster.reset := rfl
@[simp] theorem Station.reset_clock : Station.reset.clock = Clock.reset := rfl

/-! ### bump: every block but control -/

@[simp] theorem Station.bump_blocks (c : Counter) (s : Station) :
    (s.bump c).port = s.port ∧ (s.bump c).fetch = s.fetch ∧ (s.bump c).lane = s.lane ∧
    (s.bump c).chunker = s.chunker ∧ (s.bump c).exchange = s.exchange ∧ (s.bump c).index = s.index ∧
    (s.bump c).bus = s.bus ∧ (s.bump c).roster = s.roster ∧ (s.bump c).clock = s.clock ∧
    (s.bump c).torn = s.torn :=
  ⟨rfl, rfl, rfl, rfl, rfl, rfl, rfl, rfl, rfl, rfl⟩


/-! ### setPool: every block but control -/

@[simp] theorem Station.setPool_blocks (b : Branch) (p : Pool) (s : Station) :
    (s.setPool b p).port = s.port ∧ (s.setPool b p).fetch = s.fetch ∧ (s.setPool b p).lane = s.lane ∧
    (s.setPool b p).chunker = s.chunker ∧ (s.setPool b p).exchange = s.exchange ∧
    (s.setPool b p).index = s.index ∧ (s.setPool b p).bus = s.bus ∧ (s.setPool b p).roster = s.roster ∧
    (s.setPool b p).clock = s.clock ∧ (s.setPool b p).torn = s.torn :=
  ⟨rfl, rfl, rfl, rfl, rfl, rfl, rfl, rfl, rfl, rfl⟩


/-! ### mapLane: every block but lane -/

@[simp] theorem Station.mapLane_blocks (l : LaneNo) (f : Lane → Lane) (s : Station) :
    (s.mapLane l f).control = s.control ∧ (s.mapLane l f).port = s.port ∧ (s.mapLane l f).fetch = s.fetch ∧
    (s.mapLane l f).chunker = s.chunker ∧ (s.mapLane l f).exchange = s.exchange ∧
    (s.mapLane l f).index = s.index ∧ (s.mapLane l f).bus = s.bus ∧ (s.mapLane l f).roster = s.roster ∧
    (s.mapLane l f).clock = s.clock ∧ (s.mapLane l f).torn = s.torn :=
  ⟨rfl, rfl, rfl, rfl, rfl, rfl, rfl, rfl, rfl, rfl⟩


/-! ### setEntry: every block but exchange -/

@[simp] theorem Station.setEntry_blocks (i : EntryIndex) (e : Entry) (s : Station) :
    (s.setEntry i e).control = s.control ∧ (s.setEntry i e).port = s.port ∧ (s.setEntry i e).fetch = s.fetch ∧
    (s.setEntry i e).lane = s.lane ∧ (s.setEntry i e).chunker = s.chunker ∧ (s.setEntry i e).index = s.index ∧
    (s.setEntry i e).bus = s.bus ∧ (s.setEntry i e).roster = s.roster ∧ (s.setEntry i e).clock = s.clock ∧
    (s.setEntry i e).torn = s.torn :=
  ⟨rfl, rfl, rfl, rfl, rfl, rfl, rfl, rfl, rfl, rfl⟩


/-! ### setPeer: every block but roster -/

@[simp] theorem Station.setPeer_blocks (p : StationNo) (r : Peer) (s : Station) :
    (s.setPeer p r).control = s.control ∧ (s.setPeer p r).port = s.port ∧ (s.setPeer p r).fetch = s.fetch ∧
    (s.setPeer p r).lane = s.lane ∧ (s.setPeer p r).chunker = s.chunker ∧
    (s.setPeer p r).exchange = s.exchange ∧ (s.setPeer p r).index = s.index ∧ (s.setPeer p r).bus = s.bus ∧
    (s.setPeer p r).clock = s.clock ∧ (s.setPeer p r).torn = s.torn :=
  ⟨rfl, rfl, rfl, rfl, rfl, rfl, rfl, rfl, rfl, rfl⟩


/-! ### setClaim: every block but index -/

@[simp] theorem Station.setClaim_blocks (p : ClaimPos) (c : Option Claim) (s : Station) :
    (s.setClaim p c).control = s.control ∧ (s.setClaim p c).port = s.port ∧ (s.setClaim p c).fetch = s.fetch ∧
    (s.setClaim p c).lane = s.lane ∧ (s.setClaim p c).chunker = s.chunker ∧
    (s.setClaim p c).exchange = s.exchange ∧ (s.setClaim p c).bus = s.bus ∧
    (s.setClaim p c).roster = s.roster ∧ (s.setClaim p c).clock = s.clock ∧ (s.setClaim p c).torn = s.torn :=
  ⟨rfl, rfl, rfl, rfl, rfl, rfl, rfl, rfl, rfl, rfl⟩


/-! ### setContext: every block but chunker -/

@[simp] theorem Station.setContext_blocks (l : LaneNo) (c : Context) (s : Station) :
    (s.setContext l c).control = s.control ∧ (s.setContext l c).port = s.port ∧
    (s.setContext l c).fetch = s.fetch ∧ (s.setContext l c).lane = s.lane ∧
    (s.setContext l c).exchange = s.exchange ∧ (s.setContext l c).index = s.index ∧
    (s.setContext l c).bus = s.bus ∧ (s.setContext l c).roster = s.roster ∧
    (s.setContext l c).clock = s.clock ∧ (s.setContext l c).torn = s.torn :=
  ⟨rfl, rfl, rfl, rfl, rfl, rfl, rfl, rfl, rfl, rfl⟩


/-! ### txPush: every block but bus -/

@[simp] theorem Station.txPush_blocks (f : Frame) (w : TxProducer) (s : Station) :
    (s.txPush f w).control = s.control ∧ (s.txPush f w).port = s.port ∧ (s.txPush f w).fetch = s.fetch ∧
    (s.txPush f w).lane = s.lane ∧ (s.txPush f w).chunker = s.chunker ∧ (s.txPush f w).exchange = s.exchange ∧
    (s.txPush f w).index = s.index ∧ (s.txPush f w).roster = s.roster ∧ (s.txPush f w).clock = s.clock ∧
    (s.txPush f w).torn = s.torn :=
  ⟨rfl, rfl, rfl, rfl, rfl, rfl, rfl, rfl, rfl, rfl⟩


/-! ### workPush: every block but index -/

@[simp] theorem Station.workPush_blocks (i : WorkItem) (s : Station) :
    (s.workPush i).control = s.control ∧ (s.workPush i).port = s.port ∧ (s.workPush i).fetch = s.fetch ∧
    (s.workPush i).lane = s.lane ∧ (s.workPush i).chunker = s.chunker ∧ (s.workPush i).exchange = s.exchange ∧
    (s.workPush i).bus = s.bus ∧ (s.workPush i).roster = s.roster ∧ (s.workPush i).clock = s.clock ∧
    (s.workPush i).torn = s.torn :=
  ⟨rfl, rfl, rfl, rfl, rfl, rfl, rfl, rfl, rfl, rfl⟩


/-! ### purge: every block but bus -/

@[simp] theorem Station.purge_blocks (p : StationNo) (s : Station) :
    (s.purge p).control = s.control ∧ (s.purge p).port = s.port ∧ (s.purge p).fetch = s.fetch ∧
    (s.purge p).lane = s.lane ∧ (s.purge p).chunker = s.chunker ∧ (s.purge p).exchange = s.exchange ∧
    (s.purge p).index = s.index ∧ (s.purge p).roster = s.roster ∧ (s.purge p).clock = s.clock ∧
    (s.purge p).torn = s.torn :=
  ⟨rfl, rfl, rfl, rfl, rfl, rfl, rfl, rfl, rfl, rfl⟩


/-! ### refuse: every block but port -/

@[simp] theorem Station.refuse_blocks (e : CmdEntry) (l : LaneNo) (x : CmdErrorCode) (s : Station) :
    (s.refuse e l x).control = s.control ∧ (s.refuse e l x).fetch = s.fetch ∧ (s.refuse e l x).lane = s.lane ∧
    (s.refuse e l x).chunker = s.chunker ∧ (s.refuse e l x).exchange = s.exchange ∧
    (s.refuse e l x).index = s.index ∧ (s.refuse e l x).bus = s.bus ∧ (s.refuse e l x).roster = s.roster ∧
    (s.refuse e l x).clock = s.clock ∧ (s.refuse e l x).torn = s.torn :=
  ⟨rfl, rfl, rfl, rfl, rfl, rfl, rfl, rfl, rfl, rfl⟩


/-! ### removeOnLine: every block but bus -/

@[simp] theorem Station.removeOnLine_blocks (s : Station) :
    (s.removeOnLine).control = s.control ∧ (s.removeOnLine).port = s.port ∧ (s.removeOnLine).fetch = s.fetch ∧
    (s.removeOnLine).lane = s.lane ∧ (s.removeOnLine).chunker = s.chunker ∧
    (s.removeOnLine).exchange = s.exchange ∧ (s.removeOnLine).index = s.index ∧
    (s.removeOnLine).roster = s.roster ∧ (s.removeOnLine).clock = s.clock ∧ (s.removeOnLine).torn = s.torn :=
  ⟨rfl, rfl, rfl, rfl, rfl, rfl, rfl, rfl, rfl, rfl⟩


/-! ### retryOnLine: every block but bus -/

@[simp] theorem Station.retryOnLine_blocks (s : Station) :
    (s.retryOnLine).control = s.control ∧ (s.retryOnLine).port = s.port ∧ (s.retryOnLine).fetch = s.fetch ∧
    (s.retryOnLine).lane = s.lane ∧ (s.retryOnLine).chunker = s.chunker ∧
    (s.retryOnLine).exchange = s.exchange ∧ (s.retryOnLine).index = s.index ∧
    (s.retryOnLine).roster = s.roster ∧ (s.retryOnLine).clock = s.clock ∧ (s.retryOnLine).torn = s.torn :=
  ⟨rfl, rfl, rfl, rfl, rfl, rfl, rfl, rfl, rfl, rfl⟩


/-! ### reportPeer: every block but roster -/

@[simp] theorem Station.reportPeer_blocks (v : PeerEvent) (p : StationNo) (s : Station) :
    (s.reportPeer v p).control = s.control ∧ (s.reportPeer v p).port = s.port ∧
    (s.reportPeer v p).fetch = s.fetch ∧ (s.reportPeer v p).lane = s.lane ∧
    (s.reportPeer v p).chunker = s.chunker ∧ (s.reportPeer v p).exchange = s.exchange ∧
    (s.reportPeer v p).index = s.index ∧ (s.reportPeer v p).bus = s.bus ∧ (s.reportPeer v p).clock = s.clock ∧
    (s.reportPeer v p).torn = s.torn :=
  ⟨rfl, rfl, rfl, rfl, rfl, rfl, rfl, rfl, rfl, rfl⟩


/-! ### The fields of the block that an update touches -/

@[simp] theorem Station.bump_control (c : Counter) (s : Station) :
    (s.bump c).control.coldPin = s.control.coldPin ∧ (s.bump c).control.warmPin = s.control.warmPin ∧
    (s.bump c).control.straps = s.control.straps ∧ (s.bump c).control.state = s.control.state ∧
    (s.bump c).control.pools = s.control.pools ∧ (s.bump c).control.lock = s.control.lock ∧
    (s.bump c).control.scrubOwed = s.control.scrubOwed ∧ (s.bump c).control.ready = s.control.ready ∧
    (s.bump c).control.startedOwed = s.control.startedOwed ∧
    (s.bump c).control.strapReads = s.control.strapReads :=
  ⟨rfl, rfl, rfl, rfl, rfl, rfl, rfl, rfl, rfl, rfl⟩

@[simp] theorem Station.setPool_control (b : Branch) (p : Pool) (s : Station) :
    (s.setPool b p).control.coldPin = s.control.coldPin ∧
    (s.setPool b p).control.warmPin = s.control.warmPin ∧ (s.setPool b p).control.straps = s.control.straps ∧
    (s.setPool b p).control.state = s.control.state ∧ (s.setPool b p).control.lock = s.control.lock ∧
    (s.setPool b p).control.scrubOwed = s.control.scrubOwed ∧
    (s.setPool b p).control.counters = s.control.counters ∧ (s.setPool b p).control.ready = s.control.ready ∧
    (s.setPool b p).control.startedOwed = s.control.startedOwed ∧
    (s.setPool b p).control.strapReads = s.control.strapReads :=
  ⟨rfl, rfl, rfl, rfl, rfl, rfl, rfl, rfl, rfl, rfl⟩

@[simp] theorem Station.mapLane_lane (l : LaneNo) (f : Lane → Lane) (s : Station) :
    (s.mapLane l f).lane.ready = s.lane.ready ∧ (s.mapLane l f).lane.next = s.lane.next :=
  ⟨rfl, rfl⟩

@[simp] theorem Station.setEntry_exchange (i : EntryIndex) (e : Entry) (s : Station) :
    (s.setEntry i e).exchange.waitQueue = s.exchange.waitQueue ∧
    (s.setEntry i e).exchange.ready = s.exchange.ready ∧
    (s.setEntry i e).exchange.nextSelf = s.exchange.nextSelf ∧
    (s.setEntry i e).exchange.nextBus = s.exchange.nextBus ∧
    (s.setEntry i e).exchange.nextReport = s.exchange.nextReport ∧
    (s.setEntry i e).exchange.offerSelf = s.exchange.offerSelf ∧
    (s.setEntry i e).exchange.offerBus = s.exchange.offerBus :=
  ⟨rfl, rfl, rfl, rfl, rfl, rfl, rfl⟩

@[simp] theorem Station.setPeer_roster (p : StationNo) (r : Peer) (s : Station) :
    (s.setPeer p r).roster.ready = s.roster.ready ∧ (s.setPeer p r).roster.held = s.roster.held ∧
    (s.setPeer p r).roster.next = s.roster.next ∧
    (s.setPeer p r).roster.conflictOwed = s.roster.conflictOwed ∧
    (s.setPeer p r).roster.conflictFlag = s.roster.conflictFlag ∧
    (s.setPeer p r).roster.beaconDeadline = s.roster.beaconDeadline ∧
    (s.setPeer p r).roster.beaconQueued = s.roster.beaconQueued ∧
    (s.setPeer p r).roster.fresh = s.roster.fresh :=
  ⟨rfl, rfl, rfl, rfl, rfl, rfl, rfl, rfl⟩

@[simp] theorem Station.setClaim_index (p : ClaimPos) (c : Option Claim) (s : Station) :
    (s.setClaim p c).index.queue = s.index.queue ∧
    (s.setClaim p c).index.admittedLast = s.index.admittedLast ∧
    (s.setClaim p c).index.records = s.index.records ∧ (s.setClaim p c).index.write = s.index.write ∧
    (s.setClaim p c).index.answers = s.index.answers ∧ (s.setClaim p c).index.ready = s.index.ready ∧
    (s.setClaim p c).index.scrub = s.index.scrub ∧ (s.setClaim p c).index.table = s.index.table :=
  ⟨rfl, rfl, rfl, rfl, rfl, rfl, rfl, rfl⟩

@[simp] theorem Station.setContext_chunker (l : LaneNo) (c : Context) (s : Station) :
    (s.setContext l c).chunker.pointer = s.chunker.pointer ∧
    (s.setContext l c).chunker.burst = s.chunker.burst ∧
    (s.setContext l c).chunker.digests = s.chunker.digests ∧
    (s.setContext l c).chunker.engine = s.chunker.engine :=
  ⟨rfl, rfl, rfl, rfl⟩

@[simp] theorem Station.txPush_bus (f : Frame) (w : TxProducer) (s : Station) :
    (s.txPush f w).bus.inbound = s.bus.inbound ∧ (s.txPush f w).bus.yield = s.bus.yield ∧
    (s.txPush f w).bus.txLast = s.bus.txLast ∧ (s.txPush f w).bus.indexWaits = s.bus.indexWaits ∧
    (s.txPush f w).bus.inboundWaits = s.bus.inboundWaits ∧ (s.txPush f w).bus.sentCells = s.bus.sentCells ∧
    (s.txPush f w).bus.ackDriven = s.bus.ackDriven :=
  ⟨rfl, rfl, rfl, rfl, rfl, rfl, rfl⟩

@[simp] theorem Station.workPush_index (i : WorkItem) (s : Station) :
    (s.workPush i).index.claims = s.index.claims ∧ (s.workPush i).index.admittedLast = s.index.admittedLast ∧
    (s.workPush i).index.records = s.index.records ∧ (s.workPush i).index.write = s.index.write ∧
    (s.workPush i).index.answers = s.index.answers ∧ (s.workPush i).index.ready = s.index.ready ∧
    (s.workPush i).index.scrub = s.index.scrub ∧ (s.workPush i).index.table = s.index.table :=
  ⟨rfl, rfl, rfl, rfl, rfl, rfl, rfl, rfl⟩

@[simp] theorem Station.purge_bus (p : StationNo) (s : Station) :
    (s.purge p).bus.inbound = s.bus.inbound ∧ (s.purge p).bus.yield = s.bus.yield ∧
    (s.purge p).bus.txLast = s.bus.txLast ∧ (s.purge p).bus.indexWaits = s.bus.indexWaits ∧
    (s.purge p).bus.inboundWaits = s.bus.inboundWaits ∧ (s.purge p).bus.sentCells = s.bus.sentCells ∧
    (s.purge p).bus.ackDriven = s.bus.ackDriven :=
  ⟨rfl, rfl, rfl, rfl, rfl, rfl, rfl⟩

@[simp] theorem Station.refuse_port (e : CmdEntry) (l : LaneNo) (x : CmdErrorCode) (s : Station) :
    (s.refuse e l x).port.staging = s.port.staging ∧ (s.refuse e l x).port.fifo = s.port.fifo ∧
    (s.refuse e l x).port.overrun = s.port.overrun ∧ (s.refuse e l x).port.reports = s.port.reports ∧
    (s.refuse e l x).port.threshold = s.port.threshold ∧
    (s.refuse e l x).port.arbiterLast = s.port.arbiterLast ∧
    (s.refuse e l x).port.arbiterChoice = s.port.arbiterChoice ∧
    (s.refuse e l x).port.readData = s.port.readData :=
  ⟨rfl, rfl, rfl, rfl, rfl, rfl, rfl, rfl⟩


/-! ### What an update gives back when read -/

@[simp] theorem Station.entry_setEntry (i j : EntryIndex) (e : Entry) (s : Station) :
    (s.setEntry i e).entry j = if i = j then e else s.entry j := by
  simp [Station.entry, Station.setEntry, Vector.getElem_set, Fin.ext_iff]

@[simp] theorem Station.laneAt_mapLane (l k : LaneNo) (f : Lane → Lane) (s : Station) :
    (s.mapLane l f).laneAt k = if l = k then f (s.laneAt k) else s.laneAt k := by
  by_cases h : l = k
  · subst h; simp [Station.laneAt, Station.mapLane]
  · have : l.val ≠ k.val := fun e => h (Fin.ext e)
    simp [Station.laneAt, Station.mapLane, this, h]

@[simp] theorem Station.context_setContext (l k : LaneNo) (c : Context) (s : Station) :
    (s.setContext l c).context k = if l = k then c else s.context k := by
  simp [Station.context, Station.setContext, Vector.getElem_set, Fin.ext_iff]

@[simp] theorem Station.claims_setClaim (p q : ClaimPos) (c : Option Claim) (s : Station) :
    (s.setClaim p c).index.claims[q] = if p = q then c else s.index.claims[q] := by
  simp [Station.setClaim, Vector.getElem_set, Fin.ext_iff]

@[simp] theorem Station.peer_setPeer (p q : StationNo) (r : Peer) (s : Station) (hp : p ≠ 15) :
    (s.setPeer p r).peer q = if p = q then r else s.peer q := by
  have hlt : p.toNat < 15 := by
    have h16 : p.toNat < 16 := p.isLt
    have h15 : p.toNat ≠ 15 := fun h => hp (BitVec.eq_of_toNat_eq (by simpa using h))
    omega
  by_cases h : p = q
  · subst h; simp [Station.peer, Station.setPeer, hlt]
  · have : p.toNat ≠ q.toNat := fun e => h (BitVec.eq_of_toNat_eq e)
    simp [Station.peer, Station.setPeer, h, this]

theorem Counter.index_injective {c d : Counter} (h : c.index = d.index) : c = d := by
  cases c <;> cases d <;> first | rfl | exact absurd h (by decide)

/-- A bump moves its own counter by one and no other (R188). -/
@[simp] theorem Station.counter_bump (c d : Counter) (s : Station) :
    (s.bump c).counter d = if c = d then s.counter d + 1 else s.counter d := by
  by_cases h : c = d
  · subst h; simp [Station.counter, Station.bump]
  · have : c.index.val ≠ d.index.val := fun e => h (Counter.index_injective (Fin.ext e))
    simp [Station.counter, Station.bump, this, h]

end Sys2Proof.Machine
end

