-- ==== Sys2Proof/Laws/Frames.lean ====
section
/-! SUPPORT. Which blocks of the station each shared operation leaves as they are: one lemma per operation, a conjunction
over the blocks that it does not touch (simp reads it as one rewrite rule a block). -/
namespace Sys2Proof.Machine

@[simp] theorem Station.moveSlot_blocks (b : Option Binding) (f : Slot → Slot) (s : Station) :
    (s.moveSlot b f).control = s.control ∧ (s.moveSlot b f).port = s.port ∧ (s.moveSlot b f).fetch = s.fetch ∧
    (s.moveSlot b f).chunker = s.chunker ∧ (s.moveSlot b f).exchange = s.exchange ∧
    (s.moveSlot b f).index = s.index ∧ (s.moveSlot b f).bus = s.bus ∧ (s.moveSlot b f).roster = s.roster ∧
    (s.moveSlot b f).clock = s.clock ∧ (s.moveSlot b f).torn = s.torn := by
  unfold Station.moveSlot; split <;> simp

@[simp] theorem Station.storeUnindexed_blocks (r : Reason) (b : Option Binding) (s : Station) :
    (s.storeUnindexed r b).port = s.port ∧ (s.storeUnindexed r b).fetch = s.fetch ∧
    (s.storeUnindexed r b).chunker = s.chunker ∧ (s.storeUnindexed r b).exchange = s.exchange ∧
    (s.storeUnindexed r b).index = s.index ∧ (s.storeUnindexed r b).bus = s.bus ∧
    (s.storeUnindexed r b).roster = s.roster ∧ (s.storeUnindexed r b).clock = s.clock ∧
    (s.storeUnindexed r b).torn = s.torn := by
  simp [Station.storeUnindexed]

@[simp] theorem Station.exhaust_blocks (i : EntryIndex) (s : Station) :
    (s.exhaust i).port = s.port ∧ (s.exhaust i).fetch = s.fetch ∧ (s.exhaust i).chunker = s.chunker ∧
    (s.exhaust i).index = s.index ∧ (s.exhaust i).bus = s.bus ∧ (s.exhaust i).roster = s.roster ∧
    (s.exhaust i).clock = s.clock ∧ (s.exhaust i).torn = s.torn := by
  unfold Station.exhaust; dsimp only; (repeat' split) <;> simp

@[simp] theorem Station.attemptFailed_blocks (i : EntryIndex) (s : Station) :
    (s.attemptFailed i).port = s.port ∧ (s.attemptFailed i).fetch = s.fetch ∧
    (s.attemptFailed i).chunker = s.chunker ∧ (s.attemptFailed i).index = s.index ∧
    (s.attemptFailed i).bus = s.bus ∧ (s.attemptFailed i).roster = s.roster ∧
    (s.attemptFailed i).clock = s.clock ∧ (s.attemptFailed i).torn = s.torn := by
  unfold Station.attemptFailed; dsimp only; (repeat' split) <;> simp

@[simp] theorem Station.giveUp_blocks (o : ReleasedOutcome) (i : EntryIndex) (s : Station) :
    (s.giveUp o i).port = s.port ∧ (s.giveUp o i).fetch = s.fetch ∧ (s.giveUp o i).lane = s.lane ∧
    (s.giveUp o i).chunker = s.chunker ∧ (s.giveUp o i).index = s.index ∧ (s.giveUp o i).bus = s.bus ∧
    (s.giveUp o i).roster = s.roster ∧ (s.giveUp o i).clock = s.clock ∧ (s.giveUp o i).torn = s.torn := by
  unfold Station.giveUp; dsimp only; (repeat' split) <;> simp

@[simp] theorem Station.takeKnown_blocks (i : EntryIndex) (l : Locator) (s : Station) :
    (s.takeKnown i l).control = s.control ∧ (s.takeKnown i l).port = s.port ∧
    (s.takeKnown i l).fetch = s.fetch ∧ (s.takeKnown i l).chunker = s.chunker ∧
    (s.takeKnown i l).index = s.index ∧ (s.takeKnown i l).bus = s.bus ∧ (s.takeKnown i l).roster = s.roster ∧
    (s.takeKnown i l).clock = s.clock ∧ (s.takeKnown i l).torn = s.torn := by
  simp [Station.takeKnown]

@[simp] theorem Station.takeWrite_blocks (i : EntryIndex) (s : Station) :
    (s.takeWrite i).control = s.control ∧ (s.takeWrite i).port = s.port ∧ (s.takeWrite i).fetch = s.fetch ∧
    (s.takeWrite i).chunker = s.chunker ∧ (s.takeWrite i).index = s.index ∧ (s.takeWrite i).bus = s.bus ∧
    (s.takeWrite i).roster = s.roster ∧ (s.takeWrite i).clock = s.clock ∧ (s.takeWrite i).torn = s.torn := by
  simp [Station.takeWrite]

theorem Station.answerAsking_blocks (i : EntryIndex) (a : AnswerBody) (s t : Station) :
    s.answerAsking i a = some t → t.port = s.port ∧ t.fetch = s.fetch ∧ t.chunker = s.chunker ∧ t.index = s.index ∧ t.bus = s.bus ∧
    t.roster = s.roster ∧ t.clock = s.clock ∧ t.torn = s.torn := by
  unfold Station.answerAsking
  rcases a.asVerdict with _ | (v | _ | _ | _) <;> rintro ⟨⟩ <;> simp

theorem Station.answerHolding_blocks (i : EntryIndex) (a : AnswerBody) (s t : Station) :
    s.answerHolding i a = some t → t.port = s.port ∧ t.fetch = s.fetch ∧ t.chunker = s.chunker ∧ t.index = s.index ∧ t.bus = s.bus ∧
    t.roster = s.roster ∧ t.clock = s.clock ∧ t.torn = s.torn := by
  unfold Station.answerHolding
  rcases a.asVerdict with _ | (v | _ | _ | _) <;> rintro ⟨⟩ <;> simp

theorem Station.answerCommitting_blocks (i : EntryIndex) (a : AnswerBody) (s t : Station) :
    s.answerCommitting i a = some t → t.port = s.port ∧ t.fetch = s.fetch ∧ t.chunker = s.chunker ∧ t.index = s.index ∧ t.bus = s.bus ∧
    t.roster = s.roster ∧ t.clock = s.clock ∧ t.torn = s.torn := by
  unfold Station.answerCommitting
  rcases a with v | n | (_ | m | _) | o <;> rintro ⟨⟩ <;> simp

theorem Station.answerReleasing_blocks (i : EntryIndex) (a : AnswerBody) (s t : Station) :
    s.answerReleasing i a = some t → t.port = s.port ∧ t.fetch = s.fetch ∧ t.chunker = s.chunker ∧ t.index = s.index ∧ t.bus = s.bus ∧
    t.roster = s.roster ∧ t.clock = s.clock ∧ t.torn = s.torn := by
  unfold Station.answerReleasing
  rcases a with v | n | r | o
  iterate 3 (rintro ⟨⟩)
  dsimp only
  cases (s.entry i).kind
  · rintro ⟨⟩
  · rintro ⟨⟩; simp
  · cases o <;> rintro ⟨⟩ <;> simp

theorem Station.answerAskOrphan_blocks (i : EntryIndex) (b : Bool) (a : AnswerBody) (s t : Station) :
    s.answerAskOrphan i b a = some t → t.port = s.port ∧ t.fetch = s.fetch ∧ t.chunker = s.chunker ∧ t.index = s.index ∧ t.bus = s.bus ∧
    t.roster = s.roster ∧ t.clock = s.clock ∧ t.torn = s.torn := by
  unfold Station.answerAskOrphan
  rcases a.asVerdict with _ | (v | _ | _ | _) <;> cases b <;> rintro ⟨⟩ <;> simp

theorem Station.answerCommitOrphan_blocks (i : EntryIndex) (b : Bool) (a : AnswerBody) (s t : Station) :
    s.answerCommitOrphan i b a = some t → t.port = s.port ∧ t.fetch = s.fetch ∧ t.chunker = s.chunker ∧ t.index = s.index ∧ t.bus = s.bus ∧
    t.roster = s.roster ∧ t.clock = s.clock ∧ t.torn = s.torn := by
  unfold Station.answerCommitOrphan
  rcases a with v | n | (_ | m | _) | o <;> rintro ⟨⟩ <;> simp

theorem Station.answerEntry_blocks (i : EntryIndex) (a : AnswerBody) (s t : Station) (h : s.answerEntry i a = some t) :
    t.port = s.port ∧ t.fetch = s.fetch ∧ t.chunker = s.chunker ∧ t.index = s.index ∧ t.bus = s.bus ∧
    t.roster = s.roster ∧ t.clock = s.clock ∧ t.torn = s.torn := by
  unfold Station.answerEntry at h
  split at h
  · exact Station.answerAsking_blocks i a s t h
  · exact Station.answerHolding_blocks i a s t h
  · exact Station.answerCommitting_blocks i a s t h
  · exact Station.answerReleasing_blocks i a s t h
  · exact Station.answerAskOrphan_blocks i _ a s t h
  · exact Station.answerAskOrphan_blocks i _ a s t h
  · exact Station.answerCommitOrphan_blocks i _ a s t h
  · exact Station.answerCommitOrphan_blocks i _ a s t h
  all_goals simp at h

@[simp] theorem Station.takeAnswer_blocks (g : Tag) (a : AnswerBody) (s : Station) :
    (s.takeAnswer g a).port = s.port ∧ (s.takeAnswer g a).fetch = s.fetch ∧
    (s.takeAnswer g a).chunker = s.chunker ∧ (s.takeAnswer g a).index = s.index ∧
    (s.takeAnswer g a).bus = s.bus ∧ (s.takeAnswer g a).roster = s.roster ∧
    (s.takeAnswer g a).clock = s.clock ∧ (s.takeAnswer g a).torn = s.torn := by
  unfold Station.takeAnswer
  split
  · cases h : s.answerEntry (tagIndex g) a with
    | none => simp
    | some t => simpa using Station.answerEntry_blocks _ _ _ _ h
  · simp

@[simp] theorem Station.sendFailed_blocks (k : RequestKind) (i : EntryIndex) (s : Station) :
    (s.sendFailed k i).port = s.port ∧ (s.sendFailed k i).fetch = s.fetch ∧
    (s.sendFailed k i).chunker = s.chunker ∧ (s.sendFailed k i).index = s.index ∧
    (s.sendFailed k i).bus = s.bus ∧ (s.sendFailed k i).roster = s.roster ∧
    (s.sendFailed k i).clock = s.clock ∧ (s.sendFailed k i).torn = s.torn := by
  unfold Station.sendFailed; split <;> simp

@[simp] theorem Station.takeOutcome_blocks (k : RequestKind) (t : Tag) (a : Bool) (s : Station) :
    (s.takeOutcome k t a).port = s.port ∧ (s.takeOutcome k t a).fetch = s.fetch ∧
    (s.takeOutcome k t a).chunker = s.chunker ∧ (s.takeOutcome k t a).index = s.index ∧
    (s.takeOutcome k t a).bus = s.bus ∧ (s.takeOutcome k t a).roster = s.roster ∧
    (s.takeOutcome k t a).clock = s.clock ∧ (s.takeOutcome k t a).torn = s.torn := by
  unfold Station.takeOutcome; dsimp only; (repeat' split) <;> simp

@[simp] theorem Station.answerExpired_blocks (i : EntryIndex) (s : Station) :
    (s.answerExpired i).port = s.port ∧ (s.answerExpired i).fetch = s.fetch ∧
    (s.answerExpired i).chunker = s.chunker ∧ (s.answerExpired i).index = s.index ∧
    (s.answerExpired i).bus = s.bus ∧ (s.answerExpired i).roster = s.roster ∧
    (s.answerExpired i).clock = s.clock ∧ (s.answerExpired i).torn = s.torn := by
  unfold Station.answerExpired; dsimp only; (repeat' split) <;> simp

@[simp] theorem Station.holdExpired_blocks (i : EntryIndex) (s : Station) :
    (s.holdExpired i).port = s.port ∧ (s.holdExpired i).fetch = s.fetch ∧
    (s.holdExpired i).chunker = s.chunker ∧ (s.holdExpired i).index = s.index ∧
    (s.holdExpired i).bus = s.bus ∧ (s.holdExpired i).roster = s.roster ∧ (s.holdExpired i).clock = s.clock ∧
    (s.holdExpired i).torn = s.torn := by
  unfold Station.holdExpired; dsimp only; (repeat' split) <;> simp

@[simp] theorem Station.orphanExpired_blocks (i : EntryIndex) (s : Station) :
    (s.orphanExpired i).control = s.control ∧ (s.orphanExpired i).port = s.port ∧
    (s.orphanExpired i).fetch = s.fetch ∧ (s.orphanExpired i).lane = s.lane ∧
    (s.orphanExpired i).chunker = s.chunker ∧ (s.orphanExpired i).index = s.index ∧
    (s.orphanExpired i).bus = s.bus ∧ (s.orphanExpired i).roster = s.roster ∧
    (s.orphanExpired i).clock = s.clock ∧ (s.orphanExpired i).torn = s.torn := by
  unfold Station.orphanExpired; dsimp only; (repeat' split) <;> simp

@[simp] theorem Station.expireEntry_blocks (d : DeadlineSort) (i : EntryIndex) (s : Station) :
    (s.expireEntry d i).port = s.port ∧ (s.expireEntry d i).fetch = s.fetch ∧
    (s.expireEntry d i).chunker = s.chunker ∧ (s.expireEntry d i).index = s.index ∧
    (s.expireEntry d i).bus = s.bus ∧ (s.expireEntry d i).roster = s.roster ∧
    (s.expireEntry d i).clock = s.clock ∧ (s.expireEntry d i).torn = s.torn := by
  unfold Station.expireEntry; (repeat' split) <;> simp

@[simp] theorem Station.cleanClosing_blocks (i : EntryIndex) (s : Station) :
    (s.cleanClosing i).control = s.control ∧ (s.cleanClosing i).port = s.port ∧
    (s.cleanClosing i).fetch = s.fetch ∧ (s.cleanClosing i).lane = s.lane ∧
    (s.cleanClosing i).chunker = s.chunker ∧ (s.cleanClosing i).index = s.index ∧
    (s.cleanClosing i).bus = s.bus ∧ (s.cleanClosing i).roster = s.roster ∧
    (s.cleanClosing i).clock = s.clock ∧ (s.cleanClosing i).torn = s.torn := by
  exact ⟨rfl, rfl, rfl, rfl, rfl, rfl, rfl, rfl, rfl, rfl⟩

@[simp] theorem Station.cleanLost_blocks (i : EntryIndex) (s : Station) :
    (s.cleanLost i).port = s.port ∧ (s.cleanLost i).fetch = s.fetch ∧ (s.cleanLost i).chunker = s.chunker ∧
    (s.cleanLost i).index = s.index ∧ (s.cleanLost i).bus = s.bus ∧ (s.cleanLost i).roster = s.roster ∧
    (s.cleanLost i).clock = s.clock ∧ (s.cleanLost i).torn = s.torn := by
  unfold Station.cleanLost; dsimp only; (repeat' split) <;> simp

@[simp] theorem Station.cleanRestarted_blocks (i : EntryIndex) (s : Station) :
    (s.cleanRestarted i).port = s.port ∧ (s.cleanRestarted i).fetch = s.fetch ∧
    (s.cleanRestarted i).chunker = s.chunker ∧ (s.cleanRestarted i).index = s.index ∧
    (s.cleanRestarted i).bus = s.bus ∧ (s.cleanRestarted i).roster = s.roster ∧
    (s.cleanRestarted i).clock = s.clock ∧ (s.cleanRestarted i).torn = s.torn := by
  unfold Station.cleanRestarted; dsimp only; (repeat' split) <;> simp

@[simp] theorem Station.cleanEntry_blocks (r : Bool) (p : StationNo) (i : EntryIndex) (s : Station) :
    (Station.cleanEntry r p s i).port = s.port ∧ (Station.cleanEntry r p s i).fetch = s.fetch ∧
    (Station.cleanEntry r p s i).chunker = s.chunker ∧ (Station.cleanEntry r p s i).index = s.index ∧
    (Station.cleanEntry r p s i).bus = s.bus ∧ (Station.cleanEntry r p s i).roster = s.roster ∧
    (Station.cleanEntry r p s i).clock = s.clock ∧ (Station.cleanEntry r p s i).torn = s.torn := by
  unfold Station.cleanEntry; (repeat' split) <;> simp

@[simp] theorem Station.cleanExchange_blocks (r : Bool) (p : StationNo) (s : Station) :
    (s.cleanExchange r p).port = s.port ∧ (s.cleanExchange r p).fetch = s.fetch ∧
    (s.cleanExchange r p).chunker = s.chunker ∧ (s.cleanExchange r p).index = s.index ∧
    (s.cleanExchange r p).bus = s.bus ∧ (s.cleanExchange r p).roster = s.roster ∧
    (s.cleanExchange r p).clock = s.clock ∧ (s.cleanExchange r p).torn = s.torn := by
  unfold Station.cleanExchange
  generalize List.finRange 256 = l
  induction l generalizing s with
  | nil => simp
  | cons i l ih => rw [List.foldl_cons]; simpa using ih (Station.cleanEntry r p s i)

@[simp] theorem Station.lookupCheck_blocks (l : LaneNo) (q : Word) (k : Key) (s : Station) :
    (s.lookupCheck l q k).port = s.port ∧ (s.lookupCheck l q k).fetch = s.fetch ∧
    (s.lookupCheck l q k).chunker = s.chunker ∧ (s.lookupCheck l q k).index = s.index ∧
    (s.lookupCheck l q k).bus = s.bus ∧ (s.lookupCheck l q k).roster = s.roster ∧
    (s.lookupCheck l q k).clock = s.clock ∧ (s.lookupCheck l q k).torn = s.torn := by
  unfold Station.lookupCheck; dsimp only; (repeat' split) <;> simp

@[simp] theorem Station.recordOffer_blocks (h : HandOnPath) (i : EntryIndex) (s : Station) :
    (s.recordOffer h i).control = s.control ∧ (s.recordOffer h i).port = s.port ∧
    (s.recordOffer h i).fetch = s.fetch ∧ (s.recordOffer h i).lane = s.lane ∧
    (s.recordOffer h i).chunker = s.chunker ∧ (s.recordOffer h i).index = s.index ∧
    (s.recordOffer h i).bus = s.bus ∧ (s.recordOffer h i).roster = s.roster ∧
    (s.recordOffer h i).clock = s.clock ∧ (s.recordOffer h i).torn = s.torn := by
  unfold Station.recordOffer; dsimp only; split <;> simp

@[simp] theorem Station.deliverInbound_blocks (s : Station) :
    (s.deliverInbound).control = s.control ∧ (s.deliverInbound).port = s.port ∧
    (s.deliverInbound).fetch = s.fetch ∧ (s.deliverInbound).lane = s.lane ∧
    (s.deliverInbound).chunker = s.chunker ∧ (s.deliverInbound).exchange = s.exchange ∧
    (s.deliverInbound).roster = s.roster ∧ (s.deliverInbound).clock = s.clock ∧
    (s.deliverInbound).torn = s.torn := by
  unfold Station.deliverInbound; (repeat' split) <;> simp

@[simp] theorem Station.deliverSelf_blocks (i : EntryIndex) (s : Station) :
    (s.deliverSelf i).control = s.control ∧ (s.deliverSelf i).port = s.port ∧
    (s.deliverSelf i).fetch = s.fetch ∧ (s.deliverSelf i).lane = s.lane ∧
    (s.deliverSelf i).chunker = s.chunker ∧ (s.deliverSelf i).bus = s.bus ∧
    (s.deliverSelf i).roster = s.roster ∧ (s.deliverSelf i).clock = s.clock ∧
    (s.deliverSelf i).torn = s.torn := by
  unfold Station.deliverSelf; dsimp only; (repeat' split) <;> simp

@[simp] theorem Station.deliverBus_blocks (i : EntryIndex) (s : Station) :
    (s.deliverBus i).control = s.control ∧ (s.deliverBus i).port = s.port ∧ (s.deliverBus i).fetch = s.fetch ∧
    (s.deliverBus i).lane = s.lane ∧ (s.deliverBus i).chunker = s.chunker ∧ (s.deliverBus i).index = s.index ∧
    (s.deliverBus i).roster = s.roster ∧ (s.deliverBus i).clock = s.clock ∧ (s.deliverBus i).torn = s.torn := by
  unfold Station.deliverBus; dsimp only; (repeat' split) <;> simp

@[simp] theorem Station.deliverHeld_blocks (s : Station) :
    (s.deliverHeld).control = s.control ∧ (s.deliverHeld).port = s.port ∧ (s.deliverHeld).fetch = s.fetch ∧
    (s.deliverHeld).lane = s.lane ∧ (s.deliverHeld).chunker = s.chunker ∧
    (s.deliverHeld).exchange = s.exchange ∧ (s.deliverHeld).bus = s.bus ∧ (s.deliverHeld).clock = s.clock ∧
    (s.deliverHeld).torn = s.torn := by
  unfold Station.deliverHeld; dsimp only; (repeat' split) <;> simp

@[simp] theorem Station.offerPeerItem_blocks (i : WorkItem) (s : Station) :
    (s.offerPeerItem i).control = s.control ∧ (s.offerPeerItem i).port = s.port ∧
    (s.offerPeerItem i).fetch = s.fetch ∧ (s.offerPeerItem i).lane = s.lane ∧
    (s.offerPeerItem i).chunker = s.chunker ∧ (s.offerPeerItem i).exchange = s.exchange ∧
    (s.offerPeerItem i).bus = s.bus ∧ (s.offerPeerItem i).clock = s.clock ∧
    (s.offerPeerItem i).torn = s.torn := by
  unfold Station.offerPeerItem; dsimp only; (repeat' split) <;> simp

@[simp] theorem Station.beaconFallsDue_blocks (s : Station) :
    (s.beaconFallsDue).control = s.control ∧ (s.beaconFallsDue).port = s.port ∧
    (s.beaconFallsDue).fetch = s.fetch ∧ (s.beaconFallsDue).lane = s.lane ∧
    (s.beaconFallsDue).chunker = s.chunker ∧ (s.beaconFallsDue).exchange = s.exchange ∧
    (s.beaconFallsDue).index = s.index ∧ (s.beaconFallsDue).clock = s.clock ∧
    (s.beaconFallsDue).torn = s.torn := by
  unfold Station.beaconFallsDue; dsimp only; (repeat' split) <;> simp

@[simp] theorem Station.cleanupPeer_blocks (r : Bool) (p : StationNo) (s : Station) :
    (s.cleanupPeer r p).port = s.port ∧ (s.cleanupPeer r p).fetch = s.fetch ∧
    (s.cleanupPeer r p).chunker = s.chunker ∧ (s.cleanupPeer r p).clock = s.clock ∧
    (s.cleanupPeer r p).torn = s.torn := by
  simp [Station.cleanupPeer]

@[simp] theorem Station.cutLane_blocks (l : LaneNo) (s : Station) :
    (s.cutLane l).control = s.control ∧ (s.cutLane l).port = s.port ∧ (s.cutLane l).fetch = s.fetch ∧
    (s.cutLane l).exchange = s.exchange ∧ (s.cutLane l).index = s.index ∧ (s.cutLane l).bus = s.bus ∧
    (s.cutLane l).roster = s.roster ∧ (s.cutLane l).clock = s.clock ∧ (s.cutLane l).torn = s.torn := by
  unfold Station.cutLane; dsimp only; (repeat' split) <;> simp

@[simp] theorem Station.finalCut_blocks (l : LaneNo) (s : Station) :
    (s.finalCut l).control = s.control ∧ (s.finalCut l).port = s.port ∧ (s.finalCut l).fetch = s.fetch ∧
    (s.finalCut l).exchange = s.exchange ∧ (s.finalCut l).index = s.index ∧ (s.finalCut l).bus = s.bus ∧
    (s.finalCut l).roster = s.roster ∧ (s.finalCut l).clock = s.clock ∧ (s.finalCut l).torn = s.torn := by
  unfold Station.finalCut; split <;> simp

@[simp] theorem Station.consumeBurst_blocks (b : Burst) (d : List Byte) (s : Station) :
    (s.consumeBurst b d).control = s.control ∧ (s.consumeBurst b d).port = s.port ∧
    (s.consumeBurst b d).fetch = s.fetch ∧ (s.consumeBurst b d).exchange = s.exchange ∧
    (s.consumeBurst b d).index = s.index ∧ (s.consumeBurst b d).bus = s.bus ∧
    (s.consumeBurst b d).roster = s.roster ∧ (s.consumeBurst b d).clock = s.clock ∧
    (s.consumeBurst b d).torn = s.torn := by
  unfold Station.consumeBurst; dsimp only; (repeat' split) <;> simp

@[simp] theorem Station.startFetch_blocks (x n : Nat) (s : Station) :
    (s.startFetch x n).control = s.control ∧ (s.startFetch x n).port = s.port ∧
    (s.startFetch x n).lane = s.lane ∧ (s.startFetch x n).chunker = s.chunker ∧
    (s.startFetch x n).exchange = s.exchange ∧ (s.startFetch x n).index = s.index ∧
    (s.startFetch x n).bus = s.bus ∧ (s.startFetch x n).roster = s.roster ∧
    (s.startFetch x n).clock = s.clock ∧ (s.startFetch x n).torn = s.torn := by
  unfold Station.startFetch; dsimp only; (repeat' split) <;> simp

@[simp] theorem Station.abortSlot_blocks (l : LaneNo) (q : Word) (s : Station) :
    (Station.abortSlot l s q).control = s.control ∧ (Station.abortSlot l s q).port = s.port ∧
    (Station.abortSlot l s q).fetch = s.fetch ∧ (Station.abortSlot l s q).lane = s.lane ∧
    (Station.abortSlot l s q).chunker = s.chunker ∧ (Station.abortSlot l s q).index = s.index ∧
    (Station.abortSlot l s q).bus = s.bus ∧ (Station.abortSlot l s q).roster = s.roster ∧
    (Station.abortSlot l s q).clock = s.clock ∧ (Station.abortSlot l s q).torn = s.torn := by
  unfold Station.abortSlot; split <;> simp

theorem Station.abortSlots_blocks (l : LaneNo) (qs : List Word) (s : Station) :
    (qs.foldl (Station.abortSlot l) s).control = s.control ∧
    (qs.foldl (Station.abortSlot l) s).port = s.port ∧ (qs.foldl (Station.abortSlot l) s).fetch = s.fetch ∧
    (qs.foldl (Station.abortSlot l) s).lane = s.lane ∧
    (qs.foldl (Station.abortSlot l) s).chunker = s.chunker ∧
    (qs.foldl (Station.abortSlot l) s).index = s.index ∧ (qs.foldl (Station.abortSlot l) s).bus = s.bus ∧
    (qs.foldl (Station.abortSlot l) s).roster = s.roster ∧
    (qs.foldl (Station.abortSlot l) s).clock = s.clock ∧ (qs.foldl (Station.abortSlot l) s).torn = s.torn := by
  induction qs generalizing s with
  | nil => simp
  | cons q qs ih => rw [List.foldl_cons]; simpa using ih (Station.abortSlot l s q)

@[simp] theorem Station.abortExchange_blocks (l : LaneNo) (s : Station) :
    (s.abortExchange l).control = s.control ∧ (s.abortExchange l).port = s.port ∧
    (s.abortExchange l).fetch = s.fetch ∧ (s.abortExchange l).lane = s.lane ∧
    (s.abortExchange l).chunker = s.chunker ∧ (s.abortExchange l).index = s.index ∧
    (s.abortExchange l).bus = s.bus ∧ (s.abortExchange l).roster = s.roster ∧
    (s.abortExchange l).clock = s.clock ∧ (s.abortExchange l).torn = s.torn := by
  unfold Station.abortExchange
  exact Station.abortSlots_blocks l _ _

@[simp] theorem Station.abortLane_blocks (l : LaneNo) (r : AbortReason) (s : Station) :
    (s.abortLane l r).control = s.control ∧ (s.abortLane l r).port = s.port ∧
    (s.abortLane l r).fetch = s.fetch ∧ (s.abortLane l r).index = s.index ∧ (s.abortLane l r).bus = s.bus ∧
    (s.abortLane l r).roster = s.roster ∧ (s.abortLane l r).clock = s.clock ∧
    (s.abortLane l r).torn = s.torn := by
  simp [Station.abortLane]

@[simp] theorem Station.commitBound_blocks (b : Binding) (x : Locator) (s : Station) :
    (s.commitBound b x).control = s.control ∧ (s.commitBound b x).port = s.port ∧
    (s.commitBound b x).fetch = s.fetch ∧ (s.commitBound b x).lane = s.lane ∧
    (s.commitBound b x).chunker = s.chunker ∧ (s.commitBound b x).index = s.index ∧
    (s.commitBound b x).bus = s.bus ∧ (s.commitBound b x).roster = s.roster ∧
    (s.commitBound b x).clock = s.clock ∧ (s.commitBound b x).torn = s.torn := by
  unfold Station.commitBound; split <;> simp

@[simp] theorem Station.storedSlot_blocks (b : Binding) (u : Option Reason) (x : Locator) (s : Station) :
    (s.storedSlot b u x).control = s.control ∧ (s.storedSlot b u x).port = s.port ∧
    (s.storedSlot b u x).fetch = s.fetch ∧ (s.storedSlot b u x).chunker = s.chunker ∧
    (s.storedSlot b u x).index = s.index ∧ (s.storedSlot b u x).bus = s.bus ∧
    (s.storedSlot b u x).roster = s.roster ∧ (s.storedSlot b u x).clock = s.clock ∧
    (s.storedSlot b u x).torn = s.torn := by
  unfold Station.storedSlot; split <;> simp

@[simp] theorem Station.enterRunning_blocks (f : Bool) (s : Station) :
    (s.enterRunning f).port = s.port ∧ (s.enterRunning f).fetch = s.fetch ∧ (s.enterRunning f).lane = s.lane ∧
    (s.enterRunning f).chunker = s.chunker ∧ (s.enterRunning f).exchange = s.exchange ∧
    (s.enterRunning f).index = s.index ∧ (s.enterRunning f).clock = s.clock ∧
    (s.enterRunning f).torn = s.torn := by
  simp [Station.enterRunning]

@[simp] theorem Station.startTaken_blocks (s : Station) :
    (s.startTaken).port = s.port ∧ (s.startTaken).fetch = s.fetch ∧ (s.startTaken).lane = s.lane ∧
    (s.startTaken).chunker = s.chunker ∧ (s.startTaken).exchange = s.exchange ∧ (s.startTaken).torn = s.torn := by
  unfold Station.startTaken; dsimp only; split <;> simp

@[simp] theorem Station.scrubDone_blocks (b : Nat) (s : Station) :
    (s.scrubDone b).port = s.port ∧ (s.scrubDone b).fetch = s.fetch ∧ (s.scrubDone b).lane = s.lane ∧
    (s.scrubDone b).chunker = s.chunker ∧ (s.scrubDone b).exchange = s.exchange ∧
    (s.scrubDone b).clock = s.clock ∧ (s.scrubDone b).torn = s.torn := by
  unfold Station.scrubDone; dsimp only; split <;> simp

@[simp] theorem Station.tearWrite_blocks (b : Nat) (k : Bucket) (s : Station) :
    (s.tearWrite b k).control = s.control ∧ (s.tearWrite b k).port = s.port ∧
    (s.tearWrite b k).fetch = s.fetch ∧ (s.tearWrite b k).lane = s.lane ∧
    (s.tearWrite b k).chunker = s.chunker ∧ (s.tearWrite b k).exchange = s.exchange ∧
    (s.tearWrite b k).bus = s.bus ∧ (s.tearWrite b k).roster = s.roster ∧ (s.tearWrite b k).clock = s.clock := by
  exact ⟨rfl, rfl, rfl, rfl, rfl, rfl, rfl, rfl, rfl⟩

@[simp] theorem Station.tearInFlight_blocks (s : Station) :
    (s.tearInFlight).control = s.control ∧ (s.tearInFlight).port = s.port ∧ (s.tearInFlight).fetch = s.fetch ∧
    (s.tearInFlight).lane = s.lane ∧ (s.tearInFlight).chunker = s.chunker ∧
    (s.tearInFlight).exchange = s.exchange ∧ (s.tearInFlight).bus = s.bus ∧
    (s.tearInFlight).roster = s.roster ∧ (s.tearInFlight).clock = s.clock := by
  unfold Station.tearInFlight; (repeat' split) <;> simp

@[simp] theorem Station.resetBlocks_blocks (s : Station) :
    (s.resetBlocks).control = s.control := by
  simp [Station.resetBlocks]

@[simp] theorem Station.tellOutcome_blocks (f : TxFrame) (a : Bool) (s : Station) :
    (s.tellOutcome f a).port = s.port ∧ (s.tellOutcome f a).fetch = s.fetch ∧
    (s.tellOutcome f a).chunker = s.chunker ∧ (s.tellOutcome f a).index = s.index ∧
    (s.tellOutcome f a).bus = s.bus ∧ (s.tellOutcome f a).clock = s.clock ∧
    (s.tellOutcome f a).torn = s.torn := by
  unfold Station.tellOutcome; (repeat' split) <;> simp

@[simp] theorem Station.endAttempt_blocks (f : TxFrame) (a : Bool) (s : Station) :
    (s.endAttempt f a).port = s.port ∧ (s.endAttempt f a).fetch = s.fetch ∧
    (s.endAttempt f a).chunker = s.chunker ∧ (s.endAttempt f a).index = s.index ∧
    (s.endAttempt f a).clock = s.clock ∧ (s.endAttempt f a).torn = s.torn := by
  unfold Station.endAttempt; (repeat' split) <;> simp

@[simp] theorem Station.placeFrame_blocks (f : Frame) (d : Bool) (s : Station) :
    (s.placeFrame f d).port = s.port ∧ (s.placeFrame f d).fetch = s.fetch ∧ (s.placeFrame f d).lane = s.lane ∧
    (s.placeFrame f d).chunker = s.chunker ∧ (s.placeFrame f d).exchange = s.exchange ∧
    (s.placeFrame f d).index = s.index ∧ (s.placeFrame f d).roster = s.roster ∧
    (s.placeFrame f d).clock = s.clock ∧ (s.placeFrame f d).torn = s.torn := by
  unfold Station.placeFrame; split <;> simp

@[simp] theorem Station.signOfLife_blocks (p : StationNo) (s : Station) :
    (s.signOfLife p).control = s.control ∧ (s.signOfLife p).port = s.port ∧ (s.signOfLife p).fetch = s.fetch ∧
    (s.signOfLife p).lane = s.lane ∧ (s.signOfLife p).chunker = s.chunker ∧
    (s.signOfLife p).exchange = s.exchange ∧ (s.signOfLife p).index = s.index ∧ (s.signOfLife p).bus = s.bus ∧
    (s.signOfLife p).clock = s.clock ∧ (s.signOfLife p).torn = s.torn := by
  simp [Station.signOfLife]

@[simp] theorem Station.goodFrame_blocks (f : Frame) (s : Station) :
    (s.goodFrame f).port = s.port ∧ (s.goodFrame f).fetch = s.fetch ∧ (s.goodFrame f).lane = s.lane ∧
    (s.goodFrame f).chunker = s.chunker ∧ (s.goodFrame f).exchange = s.exchange ∧
    (s.goodFrame f).index = s.index ∧ (s.goodFrame f).clock = s.clock ∧ (s.goodFrame f).torn = s.torn := by
  unfold Station.goodFrame; dsimp only; (repeat' split) <;> simp

@[simp] theorem Station.checkFrame_blocks (c : List Bool) (s : Station) :
    (s.checkFrame c).port = s.port ∧ (s.checkFrame c).fetch = s.fetch ∧ (s.checkFrame c).lane = s.lane ∧
    (s.checkFrame c).chunker = s.chunker ∧ (s.checkFrame c).exchange = s.exchange ∧
    (s.checkFrame c).index = s.index ∧ (s.checkFrame c).clock = s.clock ∧ (s.checkFrame c).torn = s.torn := by
  unfold Station.checkFrame; dsimp only; (repeat' split) <;> simp

@[simp] theorem Station.joinPeer_blocks (p : StationNo) (s : Station) :
    (s.joinPeer p).control = s.control ∧ (s.joinPeer p).port = s.port ∧ (s.joinPeer p).fetch = s.fetch ∧
    (s.joinPeer p).lane = s.lane ∧ (s.joinPeer p).chunker = s.chunker ∧ (s.joinPeer p).exchange = s.exchange ∧
    (s.joinPeer p).index = s.index ∧ (s.joinPeer p).bus = s.bus ∧ (s.joinPeer p).clock = s.clock ∧
    (s.joinPeer p).torn = s.torn := by
  exact ⟨rfl, rfl, rfl, rfl, rfl, rfl, rfl, rfl, rfl, rfl⟩

@[simp] theorem Station.silencePeer_blocks (p : StationNo) (s : Station) :
    (s.silencePeer p).port = s.port ∧ (s.silencePeer p).fetch = s.fetch ∧
    (s.silencePeer p).chunker = s.chunker ∧ (s.silencePeer p).clock = s.clock ∧
    (s.silencePeer p).torn = s.torn := by
  simp [Station.silencePeer]

@[simp] theorem Station.decideBeacon_blocks (p : StationNo) (f : Bool) (z : BitVec 4) (s : Station) :
    (s.decideBeacon p f z).port = s.port ∧ (s.decideBeacon p f z).fetch = s.fetch ∧
    (s.decideBeacon p f z).chunker = s.chunker ∧ (s.decideBeacon p f z).clock = s.clock ∧
    (s.decideBeacon p f z).torn = s.torn := by
  unfold Station.decideBeacon; dsimp only; (repeat' split) <;> simp

@[simp] theorem Station.takeBeacon_blocks (s : Station) :
    (s.takeBeacon).port = s.port ∧ (s.takeBeacon).fetch = s.fetch ∧ (s.takeBeacon).chunker = s.chunker ∧
    (s.takeBeacon).clock = s.clock ∧ (s.takeBeacon).torn = s.torn := by
  unfold Station.takeBeacon; dsimp only; (repeat' split) <;> simp

@[simp] theorem Station.markDue_blocks (p : ClaimPos) (s : Station) :
    (s.markDue p).control = s.control ∧ (s.markDue p).port = s.port ∧ (s.markDue p).fetch = s.fetch ∧
    (s.markDue p).lane = s.lane ∧ (s.markDue p).chunker = s.chunker ∧ (s.markDue p).exchange = s.exchange ∧
    (s.markDue p).bus = s.bus ∧ (s.markDue p).roster = s.roster ∧ (s.markDue p).clock = s.clock ∧
    (s.markDue p).torn = s.torn := by
  unfold Station.markDue; (repeat' split) <;> simp

@[simp] theorem Station.markSilence_blocks (p : StationNo) (s : Station) :
    (s.markSilence p).control = s.control ∧ (s.markSilence p).port = s.port ∧
    (s.markSilence p).fetch = s.fetch ∧ (s.markSilence p).lane = s.lane ∧
    (s.markSilence p).chunker = s.chunker ∧ (s.markSilence p).exchange = s.exchange ∧
    (s.markSilence p).index = s.index ∧ (s.markSilence p).bus = s.bus ∧ (s.markSilence p).clock = s.clock ∧
    (s.markSilence p).torn = s.torn := by
  unfold Station.markSilence; (repeat' split) <;> simp

@[simp] theorem Station.beaconExpired_blocks (s : Station) :
    (s.beaconExpired).control = s.control ∧ (s.beaconExpired).port = s.port ∧
    (s.beaconExpired).fetch = s.fetch ∧ (s.beaconExpired).lane = s.lane ∧
    (s.beaconExpired).chunker = s.chunker ∧ (s.beaconExpired).exchange = s.exchange ∧
    (s.beaconExpired).index = s.index ∧ (s.beaconExpired).clock = s.clock ∧ (s.beaconExpired).torn = s.torn := by
  unfold Station.beaconExpired; (repeat' split) <;> simp

@[simp] theorem Station.entryExpired_blocks (i : EntryIndex) (s : Station) :
    (s.entryExpired i).port = s.port ∧ (s.entryExpired i).fetch = s.fetch ∧
    (s.entryExpired i).chunker = s.chunker ∧ (s.entryExpired i).index = s.index ∧
    (s.entryExpired i).bus = s.bus ∧ (s.entryExpired i).roster = s.roster ∧
    (s.entryExpired i).clock = s.clock ∧ (s.entryExpired i).torn = s.torn := by
  unfold Station.entryExpired; (repeat' split) <;> simp

@[simp] theorem Station.actDeadline_blocks (d : Deadline) (s : Station) :
    (s.actDeadline d).port = s.port ∧ (s.actDeadline d).fetch = s.fetch ∧
    (s.actDeadline d).chunker = s.chunker ∧ (s.actDeadline d).clock = s.clock ∧
    (s.actDeadline d).torn = s.torn := by
  unfold Station.actDeadline; split <;> simp

/-- What acting on a deadline can change inside the blocks it touches: counters, due markers and the queue of frames. -/
theorem Station.actDeadline_parts (d : Deadline) (s : Station) :
    (∃ v, (s.actDeadline d).control = { s.control with counters := v }) ∧
    (∃ v, (s.actDeadline d).index = { s.index with claims := v }) ∧
    (∃ v, (s.actDeadline d).bus = { s.bus with tx := v }) ∧
    ∃ v, (s.actDeadline d).exchange = { s.exchange with entries := v } := by
  unfold Station.actDeadline Station.markDue Station.entryExpired Station.expireEntry Station.answerExpired
    Station.holdExpired Station.orphanExpired Station.attemptFailed Station.exhaust Station.giveUp Station.markSilence
    Station.beaconExpired Station.beaconFallsDue Station.storeUnindexed Station.moveSlot
  dsimp only
  (repeat' split) <;> exact ⟨⟨_, rfl⟩, ⟨_, rfl⟩, ⟨_, rfl⟩, ⟨_, rfl⟩⟩

theorem Station.settleAll_blocks (ds : List Deadline) (s : Station) :
    (s.settleAll ds).port = s.port ∧ (s.settleAll ds).fetch = s.fetch ∧ (s.settleAll ds).chunker = s.chunker ∧
    (s.settleAll ds).torn = s.torn ∧
    (s.settleAll ds).clock = if ds = [] then s.clock else { s.clock with reached := [] } := by
  induction ds generalizing s with
  | nil => exact ⟨rfl, rfl, rfl, rfl, rfl⟩
  | cons d ds ih =>
    have h := ih (({ s with clock.reached := ds } : Station).actDeadline d)
    simp only [Station.actDeadline_blocks] at h
    refine ⟨h.1, h.2.1, h.2.2.1, h.2.2.2.1, ?_⟩
    rw [Station.settleAll, h.2.2.2.2]
    split <;> simp_all

theorem Station.settleAll_parts (ds : List Deadline) (s : Station) :
    (∃ v, (s.settleAll ds).control = { s.control with counters := v }) ∧
    (∃ v, (s.settleAll ds).index = { s.index with claims := v }) ∧
    (∃ v, (s.settleAll ds).bus = { s.bus with tx := v }) ∧
    ∃ v, (s.settleAll ds).exchange = { s.exchange with entries := v } := by
  induction ds generalizing s with
  | nil => exact ⟨⟨_, rfl⟩, ⟨_, rfl⟩, ⟨_, rfl⟩, ⟨_, rfl⟩⟩
  | cons d ds ih =>
    obtain ⟨⟨_, h1⟩, ⟨_, h2⟩, ⟨_, h3⟩, ⟨_, h4⟩⟩ := ih (({ s with clock.reached := ds } : Station).actDeadline d)
    obtain ⟨⟨_, g1⟩, ⟨_, g2⟩, ⟨_, g3⟩, ⟨_, g4⟩⟩ := Station.actDeadline_parts d { s with clock.reached := ds }
    rw [Station.settleAll, h1, h2, h3, h4, g1, g2, g3, g4]
    exact ⟨⟨_, rfl⟩, ⟨_, rfl⟩, ⟨_, rfl⟩, ⟨_, rfl⟩⟩

/-- What the end of an advance leaves as it was, and that no deadline waits behind it. -/
@[simp] theorem Station.settled_blocks (s : Station) :
    s.settled.port = s.port ∧ s.settled.fetch = s.fetch ∧ s.settled.chunker = s.chunker ∧ s.settled.torn = s.torn ∧
    s.settled.clock = { s.clock with reached := [] } := by
  have h := Station.settleAll_blocks s.clock.reached s
  refine ⟨h.1, h.2.1, h.2.2.1, h.2.2.2.1, h.2.2.2.2.trans ?_⟩
  split
  · rename_i e; rw [← e]
  · rfl

/-- What it can change inside the blocks it touches: counters, due markers, the queue of frames and the entries, besides
lane windows and the roster. -/
theorem Station.settled_parts (s : Station) :
    (∃ v, s.settled.control = { s.control with counters := v }) ∧
    (∃ v, s.settled.index = { s.index with claims := v }) ∧
    (∃ v, s.settled.bus = { s.bus with tx := v }) ∧
    ∃ v, s.settled.exchange = { s.exchange with entries := v } :=
  Station.settleAll_parts _ s

@[simp] theorem Station.advanceClock_blocks (s : Station) :
    s.advanceClock.control = s.control ∧ s.advanceClock.port = s.port ∧ s.advanceClock.fetch = s.fetch ∧
    s.advanceClock.lane = s.lane ∧ s.advanceClock.chunker = s.chunker ∧ s.advanceClock.exchange = s.exchange ∧
    s.advanceClock.index = s.index ∧ s.advanceClock.bus = s.bus ∧ s.advanceClock.roster = s.roster ∧
    s.advanceClock.torn = s.torn :=
  ⟨rfl, rfl, rfl, rfl, rfl, rfl, rfl, rfl, rfl, rfl⟩

@[simp] theorem Station.refclkPeriod_blocks (s : Station) :
    s.refclkPeriod.control = s.control ∧ s.refclkPeriod.port = s.port ∧ s.refclkPeriod.fetch = s.fetch ∧
    s.refclkPeriod.lane = s.lane ∧ s.refclkPeriod.chunker = s.chunker ∧ s.refclkPeriod.exchange = s.exchange ∧
    s.refclkPeriod.index = s.index ∧ s.refclkPeriod.bus = s.bus ∧ s.refclkPeriod.roster = s.roster ∧
    s.refclkPeriod.torn = s.torn := by
  unfold Station.refclkPeriod; (repeat' split) <;> simp

@[simp] theorem Station.recipeReported_blocks (l : LaneNo) (q : Word) (s : Station) :
    (s.recipeReported l q).control = s.control ∧ (s.recipeReported l q).port = s.port ∧
    (s.recipeReported l q).fetch = s.fetch ∧ (s.recipeReported l q).lane = s.lane ∧
    (s.recipeReported l q).chunker = s.chunker ∧ (s.recipeReported l q).index = s.index ∧
    (s.recipeReported l q).bus = s.bus ∧ (s.recipeReported l q).roster = s.roster ∧
    (s.recipeReported l q).clock = s.clock ∧ (s.recipeReported l q).torn = s.torn := by
  unfold Station.recipeReported; split <;> simp

@[simp] theorem Station.tellProducer_blocks (p : Producer) (r : Report) (s : Station) :
    (s.tellProducer p r).fetch = s.fetch ∧ (s.tellProducer p r).chunker = s.chunker ∧
    (s.tellProducer p r).bus = s.bus ∧ (s.tellProducer p r).clock = s.clock ∧
    (s.tellProducer p r).torn = s.torn := by
  unfold Station.tellProducer; dsimp only; (repeat' split) <;> simp

@[simp] theorem Station.appendReport_blocks (p : Producer) (r : Report) (s : Station) :
    (s.appendReport p r).fetch = s.fetch ∧ (s.appendReport p r).chunker = s.chunker ∧
    (s.appendReport p r).bus = s.bus ∧ (s.appendReport p r).clock = s.clock ∧
    (s.appendReport p r).torn = s.torn := by
  unfold Station.appendReport; split <;> simp

@[simp] theorem Station.makeLaneReport_blocks (l : LaneNo) (s : Station) :
    (s.makeLaneReport l).control = s.control ∧ (s.makeLaneReport l).port = s.port ∧
    (s.makeLaneReport l).fetch = s.fetch ∧ (s.makeLaneReport l).chunker = s.chunker ∧
    (s.makeLaneReport l).exchange = s.exchange ∧ (s.makeLaneReport l).index = s.index ∧
    (s.makeLaneReport l).bus = s.bus ∧ (s.makeLaneReport l).roster = s.roster ∧
    (s.makeLaneReport l).clock = s.clock ∧ (s.makeLaneReport l).torn = s.torn := by
  unfold Station.makeLaneReport; dsimp only; split <;> simp

@[simp] theorem Station.dispatchRequest_blocks (s : Station) :
    (s.dispatchRequest).control = s.control ∧ (s.dispatchRequest).port = s.port ∧
    (s.dispatchRequest).fetch = s.fetch ∧ (s.dispatchRequest).lane = s.lane ∧
    (s.dispatchRequest).chunker = s.chunker ∧ (s.dispatchRequest).exchange = s.exchange ∧
    (s.dispatchRequest).roster = s.roster ∧ (s.dispatchRequest).clock = s.clock ∧
    (s.dispatchRequest).torn = s.torn := by
  unfold Station.dispatchRequest; (repeat' split) <;> simp

@[simp] theorem Station.handOnSelf_blocks (i : EntryIndex) (s : Station) :
    (s.handOnSelf i).control = s.control ∧ (s.handOnSelf i).port = s.port ∧ (s.handOnSelf i).fetch = s.fetch ∧
    (s.handOnSelf i).lane = s.lane ∧ (s.handOnSelf i).chunker = s.chunker ∧ (s.handOnSelf i).bus = s.bus ∧
    (s.handOnSelf i).roster = s.roster ∧ (s.handOnSelf i).clock = s.clock ∧ (s.handOnSelf i).torn = s.torn := by
  unfold Station.handOnSelf; (repeat' split) <;> simp

@[simp] theorem Station.handOnBus_blocks (i : EntryIndex) (s : Station) :
    (s.handOnBus i).control = s.control ∧ (s.handOnBus i).port = s.port ∧ (s.handOnBus i).fetch = s.fetch ∧
    (s.handOnBus i).lane = s.lane ∧ (s.handOnBus i).chunker = s.chunker ∧ (s.handOnBus i).index = s.index ∧
    (s.handOnBus i).roster = s.roster ∧ (s.handOnBus i).clock = s.clock ∧ (s.handOnBus i).torn = s.torn := by
  unfold Station.handOnBus; (repeat' split) <;> simp

@[simp] theorem Station.admitSource_blocks (x : Source) (s : Station) :
    (s.admitSource x).control = s.control ∧ (s.admitSource x).port = s.port ∧
    (s.admitSource x).fetch = s.fetch ∧ (s.admitSource x).lane = s.lane ∧
    (s.admitSource x).chunker = s.chunker ∧ (s.admitSource x).clock = s.clock ∧
    (s.admitSource x).torn = s.torn := by
  unfold Station.admitSource; dsimp only; (repeat' split) <;> simp

@[simp] theorem Station.grant_blocks (r : TagRequest) (i : EntryIndex) (s : Station) :
    (s.grant r i).port = s.port ∧ (s.grant r i).fetch = s.fetch ∧ (s.grant r i).chunker = s.chunker ∧
    (s.grant r i).index = s.index ∧ (s.grant r i).bus = s.bus ∧ (s.grant r i).roster = s.roster ∧
    (s.grant r i).clock = s.clock ∧ (s.grant r i).torn = s.torn := by
  unfold Station.grant; (repeat' split) <;> simp

@[simp] theorem Station.issueBurst_blocks (l : LaneNo) (d : Descriptor) (s : Station) :
    (s.issueBurst l d).control = s.control ∧ (s.issueBurst l d).port = s.port ∧
    (s.issueBurst l d).lane = s.lane ∧ (s.issueBurst l d).exchange = s.exchange ∧
    (s.issueBurst l d).index = s.index ∧ (s.issueBurst l d).bus = s.bus ∧
    (s.issueBurst l d).roster = s.roster ∧ (s.issueBurst l d).clock = s.clock ∧
    (s.issueBurst l d).torn = s.torn := by
  simp [Station.issueBurst]

@[simp] theorem Station.completeBurst_blocks (b : Burst) (f : Fetch) (s : Station) :
    (s.completeBurst b f).control = s.control ∧ (s.completeBurst b f).port = s.port ∧
    (s.completeBurst b f).index = s.index ∧ (s.completeBurst b f).bus = s.bus ∧
    (s.completeBurst b f).roster = s.roster ∧ (s.completeBurst b f).clock = s.clock ∧
    (s.completeBurst b f).torn = s.torn := by
  unfold Station.completeBurst; dsimp only; (repeat' split) <;> simp

@[simp] theorem Station.digestDone_blocks (d : DigestEntry) (s : Station) :
    (s.digestDone d).port = s.port ∧ (s.digestDone d).fetch = s.fetch ∧ (s.digestDone d).chunker = s.chunker ∧
    (s.digestDone d).index = s.index ∧ (s.digestDone d).bus = s.bus ∧ (s.digestDone d).roster = s.roster ∧
    (s.digestDone d).clock = s.clock ∧ (s.digestDone d).torn = s.torn := by
  simp [Station.digestDone]

@[simp] theorem Station.decidePoolSet_blocks (e : CmdEntry) (s : Station) :
    (s.decidePoolSet e).fetch = s.fetch ∧ (s.decidePoolSet e).lane = s.lane ∧
    (s.decidePoolSet e).chunker = s.chunker ∧ (s.decidePoolSet e).exchange = s.exchange ∧
    (s.decidePoolSet e).index = s.index ∧ (s.decidePoolSet e).bus = s.bus ∧
    (s.decidePoolSet e).roster = s.roster ∧ (s.decidePoolSet e).clock = s.clock ∧
    (s.decidePoolSet e).torn = s.torn := by
  unfold Station.decidePoolSet; (repeat' split) <;> simp

@[simp] theorem Station.decideConfigure_blocks (e : CmdEntry) (s : Station) :
    (s.decideConfigure e).control = s.control ∧ (s.decideConfigure e).fetch = s.fetch ∧
    (s.decideConfigure e).lane = s.lane ∧ (s.decideConfigure e).chunker = s.chunker ∧
    (s.decideConfigure e).exchange = s.exchange ∧ (s.decideConfigure e).index = s.index ∧
    (s.decideConfigure e).bus = s.bus ∧ (s.decideConfigure e).roster = s.roster ∧
    (s.decideConfigure e).clock = s.clock ∧ (s.decideConfigure e).torn = s.torn := by
  unfold Station.decideConfigure; (repeat' split) <;> simp

end Sys2Proof.Machine
end

