-- ==== Sys2Proof/Laws/Cases.lean ====
section
/-! SUPPORT. What the shared ways of taking an event can do, said once each: either the event does not arise and nothing
changes, or one decision runs. -/
namespace Sys2Proof.Machine

/-- The head command is either left alone, or is a known entry of the code, taken while no CMD_ERROR is held. -/
theorem Station.takeHead_cases (code : Nat) (decide : CmdEntry → Station → Option Station) (s : Station) :
    s.takeHead code decide = s ∨ ∃ e rest, s.port.fifo = e :: rest ∧ s.port.cmdReady = none ∧
      e.isCommand code = true ∧ decide e { s with port.fifo := rest } = some (s.takeHead code decide) := by
  unfold Station.takeHead
  split
  · rename_i e rest h
    split
    · rename_i hc
      rw [Bool.and_eq_true] at hc
      rcases hd : decide e { s with port.fifo := rest } with _ | t
      · exact .inl rfl
      · exact .inr ⟨e, rest, h, by simpa using hc.1, hc.2, hd⟩
    · exact .inl rfl
  · exact .inl rfl

/-- A lane command is left alone, refused with BAD_STATE outside RUNNING, refused by the lane unit, or taken. -/
theorem Station.takeLaneCommand_cases (code : Nat) (decide : CmdEntry → Station → Except CmdErrorCode Station)
    (s : Station) :
    s.takeLaneCommand code decide = s ∨ ∃ e rest, s.port.fifo = e :: rest ∧ s.port.cmdReady = none ∧
      e.isCommand code = true ∧
      ((s.running = false ∧ s.takeLaneCommand code decide = { s with port.fifo := rest }.refuse e e.lane .badState) ∨
        (s.running = true ∧ ∃ x, decide e { s with port.fifo := rest } = .error x ∧
          s.takeLaneCommand code decide = { s with port.fifo := rest }.refuse e e.lane x) ∨
        (s.running = true ∧ decide e { s with port.fifo := rest } = .ok (s.takeLaneCommand code decide))) := by
  rcases s.takeHead_cases code (fun e s' =>
    if s'.running then
      match decide e s' with
      | .ok t => some t
      | .error error => some (s'.refuse e e.lane error)
    else some (s'.refuse e e.lane .badState)) with h | ⟨e, rest, h1, h2, h3, h4⟩
  · exact .inl h
  · refine .inr ⟨e, rest, h1, h2, h3, ?_⟩
    change _ = some (s.takeLaneCommand code decide) at h4
    by_cases hr : s.running = true
    · have hr' : ({ s with port.fifo := rest } : Station).running = true := hr
      rw [if_pos hr'] at h4
      rcases hd : decide e { s with port.fifo := rest } with x | t
      · rw [hd] at h4; exact .inr (.inl ⟨hr, x, rfl, (Option.some.inj h4).symm⟩)
      · rw [hd] at h4; exact .inr (.inr ⟨hr, congrArg _ (Option.some.inj h4)⟩)
    · have hr' : ¬({ s with port.fifo := rest } : Station).running = true := hr
      rw [if_neg hr'] at h4
      exact .inl ⟨by simpa using hr, (Option.some.inj h4).symm⟩

/-- The head item is either left alone, or is one that `select` accepts, taken while the index unit takes items. -/
theorem Station.takeItem_cases {α : Type} (select : WorkItem → Option α) (act : α → Station → Station) (s : Station) :
    s.takeItem select act = s ∨ ∃ item rest x, s.index.queue = item :: rest ∧ select item = some x ∧
      s.takesItem = true ∧ s.takeItem select act = act x { s with index.queue := rest } := by
  unfold Station.takeItem
  split
  · rename_i item rest h
    split
    · rename_i x hx
      split
      · exact .inr ⟨item, rest, x, h, hx, ‹_›, rfl⟩
      · exact .inl rfl
    · exact .inl rfl
  · exact .inl rfl

/-- A deadline on the list of those reached is taken off it and acted on; any other is left alone. -/
theorem Station.takeDeadline_cases (d : Deadline) (act : Station → Station) (s : Station) :
    s.takeDeadline d act = s ∨
      (d ∈ s.clock.reached ∧ s.takeDeadline d act = act { s with clock.reached := s.clock.reached.erase d }) := by
  unfold Station.takeDeadline
  split
  · exact .inr ⟨‹_›, rfl⟩
  · exact .inl rfl

/-! ### What an event of a kind keeps: whatever each of its decisions keeps -/

/-- A command of the command FIFO keeps whatever neither the head's leaving nor its decision touches. -/
theorem Station.takeHead_keeps {β : Type} (g : Station → β) {code : Nat} {decide : CmdEntry → Station → Option Station}
    {s : Station} (hp : ∀ (x : Station) rest, g { x with port.fifo := rest } = g x)
    (hd : ∀ e x t, decide e x = some t → g t = g x) : g (s.takeHead code decide) = g s := by
  rcases s.takeHead_cases code decide with h | ⟨e, rest, -, -, -, h⟩
  · rw [h]
  · rw [hd _ _ _ h, hp]

/-- A lane command keeps whatever neither a refusal nor its decision touches. -/
theorem Station.takeLaneCommand_keeps {β : Type} (g : Station → β) {code : Nat}
    {decide : CmdEntry → Station → Except CmdErrorCode Station} {s : Station}
    (hp : ∀ (x : Station) rest, g { x with port.fifo := rest } = g x)
    (hr : ∀ (x : Station) e l error, g (x.refuse e l error) = g x)
    (hd : ∀ e x t, decide e x = .ok t → g t = g x) : g (s.takeLaneCommand code decide) = g s := by
  rcases s.takeLaneCommand_cases code decide with h | ⟨e, rest, -, -, -, ⟨-, h⟩ | ⟨-, x, -, h⟩ | ⟨-, h⟩⟩
  · rw [h]
  · rw [h, hr, hp]
  · rw [h, hr, hp]
  · rw [hd _ _ _ h, hp]

/-- A work item keeps whatever neither the head's leaving nor its operation touches. -/
theorem Station.takeItem_keeps {α β : Type} (g : Station → β) {select : WorkItem → Option α}
    {act : α → Station → Station} {s : Station} (hp : ∀ (x : Station) rest, g { x with index.queue := rest } = g x)
    (hd : ∀ a x, g (act a x) = g x) : g (s.takeItem select act) = g s := by
  rcases s.takeItem_cases select act with h | ⟨item, rest, x, -, -, -, h⟩
  · rw [h]
  · rw [h, hd, hp]

/-- A deadline keeps whatever neither the list of those reached nor the action on it is. -/
theorem Station.takeDeadline_keeps {β : Type} (g : Station → β) {d : Deadline} {act : Station → Station} {s : Station}
    (hp : ∀ (x : Station) ds, g { x with clock.reached := ds } = g x) (hd : ∀ x, g (act x) = g x) :
    g (s.takeDeadline d act) = g s := by
  rcases s.takeDeadline_cases d act with h | ⟨-, h⟩
  · rw [h]
  · rw [h, hd, hp]

/-- A command's meaning changes nothing but the station. -/
theorem runStation_next {f : Station → Station} {s t : State} (h : runStation f s = .next t) :
    t = { s with station := f s.station } := by cases h; rfl

/-- Every command answers a next state with the queue of commands as it was. -/
theorem exec_next (c : Instr) (s : State) : ∃ x, exec c s = .next { s with station := x } := by
  cases c <;> exact ⟨_, rfl⟩

end Sys2Proof.Machine
end

