-- ==== Sys2Proof/Laws/Commands.lean ====
section
/-! SUPPORT. The frame of every command but the two resets: the blocks of the station that it leaves as they
stand once the deadlines of the present advance are acted on (`Station.settled`; with none waiting, by
`Station.settled_of_acted`, as they were). -/
namespace Sys2Proof.Machine

/-! ### The decisions -/

theorem Station.setUpLane_blocks {l : LaneNo} {r : ParkedRecord} {s t : Station} (h : s.setUpLane l r = .ok t) :
    t.control = s.control ∧ t.port = s.port ∧ t.fetch = s.fetch ∧ t.exchange = s.exchange ∧ t.index = s.index ∧
    t.bus = s.bus ∧ t.roster = s.roster ∧ t.clock = s.clock ∧ t.torn = s.torn := by
  unfold Station.setUpLane at h; split at h <;> cases h; simp

theorem Station.decideSegment_blocks {e : CmdEntry} {s t : Station} (h : s.decideSegment e = .ok t) :
    t.control = s.control ∧ t.port = s.port ∧ t.fetch = s.fetch ∧ t.chunker = s.chunker ∧ t.exchange = s.exchange ∧
    t.index = s.index ∧ t.bus = s.bus ∧ t.roster = s.roster ∧ t.clock = s.clock ∧ t.torn = s.torn := by
  unfold Station.decideSegment at h; dsimp only at h; (repeat' split at h) <;> cases h; simp

theorem Station.decideStored_blocks {e : CmdEntry} {s t : Station} (h : s.decideStored e = .ok t) :
    t.control = s.control ∧ t.port = s.port ∧ t.fetch = s.fetch ∧ t.chunker = s.chunker ∧ t.index = s.index ∧
    t.bus = s.bus ∧ t.roster = s.roster ∧ t.clock = s.clock ∧ t.torn = s.torn := by
  unfold Station.decideStored at h; dsimp only at h; (repeat' split at h) <;> cases h; simp

theorem Station.decideStoreFailed_blocks {e : CmdEntry} {s t : Station} (h : s.decideStoreFailed e = .ok t) :
    t.control = s.control ∧ t.port = s.port ∧ t.fetch = s.fetch ∧ t.index = s.index ∧ t.bus = s.bus ∧
    t.roster = s.roster ∧ t.clock = s.clock ∧ t.torn = s.torn := by
  unfold Station.decideStoreFailed at h; dsimp only at h; (repeat' split at h) <;> cases h; simp

theorem Station.decideAbort_blocks {e : CmdEntry} {s t : Station} (h : s.decideAbort e = .ok t) :
    t.control = s.control ∧ t.port = s.port ∧ t.fetch = s.fetch ∧ t.index = s.index ∧ t.bus = s.bus ∧
    t.roster = s.roster ∧ t.clock = s.clock ∧ t.torn = s.torn := by
  unfold Station.decideAbort at h; split at h <;> cases h; simp

theorem Station.endLane_blocks {x : LaneState} {l : LaneNo} {s t : Station} (h : s.endLane x l = .ok t) :
    t.control = s.control ∧ t.port = s.port ∧ t.fetch = s.fetch ∧ t.exchange = s.exchange ∧ t.index = s.index ∧
    t.bus = s.bus ∧ t.roster = s.roster ∧ t.clock = s.clock ∧ t.torn = s.torn := by
  unfold Station.endLane at h; split at h <;> cases h; simp

theorem Station.decideStart_blocks {e : CmdEntry} {s t : Station} (h : s.decideStart e = some t) :
    t.fetch = s.fetch ∧ t.lane = s.lane ∧ t.chunker = s.chunker ∧ t.exchange = s.exchange ∧ t.torn = s.torn := by
  unfold Station.decideStart at h; (repeat' split at h) <;> cases h <;> simp

theorem Station.decideStats_blocks {s t : Station} (h : s.decideStats = some t) :
    t.port = s.port ∧ t.fetch = s.fetch ∧ t.lane = s.lane ∧ t.chunker = s.chunker ∧ t.exchange = s.exchange ∧
    t.index = s.index ∧ t.bus = s.bus ∧ t.roster = s.roster ∧ t.clock = s.clock ∧ t.torn = s.torn := by
  unfold Station.decideStats at h; split at h <;> cases h; simp

theorem Station.decideRelease_blocks {e : CmdEntry} {s t : Station} (h : s.decideRelease e = some t) :
    t.control = s.control ∧ t.fetch = s.fetch ∧ t.lane = s.lane ∧ t.chunker = s.chunker ∧ t.index = s.index ∧
    t.bus = s.bus ∧ t.roster = s.roster ∧ t.clock = s.clock ∧ t.torn = s.torn := by
  unfold Station.decideRelease at h; dsimp only at h; (repeat' split at h) <;> cases h <;> simp

/-- A bucket operation touches only index unit and counters, where its decision does. -/
theorem bucketOperation_blocks (b : Nat) (d : BucketRead → Decision) (s : Station)
    (h : ∀ r, (d r).station.port = r.station.port ∧ (d r).station.fetch = r.station.fetch ∧
    (d r).station.lane = r.station.lane ∧ (d r).station.chunker = r.station.chunker ∧
    (d r).station.exchange = r.station.exchange ∧ (d r).station.bus = r.station.bus ∧
    (d r).station.roster = r.station.roster ∧ (d r).station.clock = r.station.clock ∧
    (d r).station.torn = r.station.torn) :
    (s.bucketOperation b d).port = s.port ∧ (s.bucketOperation b d).fetch = s.fetch ∧
    (s.bucketOperation b d).lane = s.lane ∧ (s.bucketOperation b d).chunker = s.chunker ∧
    (s.bucketOperation b d).exchange = s.exchange ∧ (s.bucketOperation b d).bus = s.bus ∧
    (s.bucketOperation b d).roster = s.roster ∧ (s.bucketOperation b d).clock = s.clock ∧
    (s.bucketOperation b d).torn = s.torn := by
  have h1 := h (s.openBucket b)
  have h2 : (s.openBucket b).station.port = s.port ∧ (s.openBucket b).station.fetch = s.fetch ∧
    (s.openBucket b).station.lane = s.lane ∧ (s.openBucket b).station.chunker = s.chunker ∧
    (s.openBucket b).station.exchange = s.exchange ∧ (s.openBucket b).station.bus = s.bus ∧
    (s.openBucket b).station.roster = s.roster ∧ (s.openBucket b).station.clock = s.clock ∧
    (s.openBucket b).station.torn = s.torn := by
    unfold Station.openBucket; split <;> simp
  unfold Station.bucketOperation Station.closeBucket
  simp only [h1, h2, and_self]

theorem Station.releaseClaim_blocks (p : ClaimPos) (c : Claim) (s : Station) :
    (s.releaseClaim p c).2.port = s.port ∧ (s.releaseClaim p c).2.fetch = s.fetch ∧
    (s.releaseClaim p c).2.lane = s.lane ∧ (s.releaseClaim p c).2.chunker = s.chunker ∧
    (s.releaseClaim p c).2.exchange = s.exchange ∧ (s.releaseClaim p c).2.bus = s.bus ∧
    (s.releaseClaim p c).2.roster = s.roster ∧ (s.releaseClaim p c).2.clock = s.clock ∧
    (s.releaseClaim p c).2.torn = s.torn := by
  unfold Station.releaseClaim; split <;> simp

theorem decideAsk_blocks (sender : Pair) (key : Key) (r : BucketRead) :
    (decideAsk sender key r).station.port = r.station.port ∧
    (decideAsk sender key r).station.fetch = r.station.fetch ∧
    (decideAsk sender key r).station.lane = r.station.lane ∧
    (decideAsk sender key r).station.chunker = r.station.chunker ∧
    (decideAsk sender key r).station.exchange = r.station.exchange ∧
    (decideAsk sender key r).station.bus = r.station.bus ∧
    (decideAsk sender key r).station.roster = r.station.roster ∧
    (decideAsk sender key r).station.clock = r.station.clock ∧
    (decideAsk sender key r).station.torn = r.station.torn := by
  unfold decideAsk Station.askClaimed Station.askAbsent; dsimp only; (repeat' split) <;> simp

theorem decideCommit_blocks (sender : Pair) (key : Key) (l : Locator) (r : BucketRead) :
    (decideCommit sender key l r).station.port = r.station.port ∧
    (decideCommit sender key l r).station.fetch = r.station.fetch ∧
    (decideCommit sender key l r).station.lane = r.station.lane ∧
    (decideCommit sender key l r).station.chunker = r.station.chunker ∧
    (decideCommit sender key l r).station.exchange = r.station.exchange ∧
    (decideCommit sender key l r).station.bus = r.station.bus ∧
    (decideCommit sender key l r).station.roster = r.station.roster ∧
    (decideCommit sender key l r).station.clock = r.station.clock ∧
    (decideCommit sender key l r).station.torn = r.station.torn := by
  unfold decideCommit commitCommitted commitClaimed commitAbsent; dsimp only; (repeat' split) <;> simp

theorem decideDrop_blocks (sender : Pair) (key : Key) (r : BucketRead) :
    (decideDrop sender key r).station.port = r.station.port ∧
    (decideDrop sender key r).station.fetch = r.station.fetch ∧
    (decideDrop sender key r).station.lane = r.station.lane ∧
    (decideDrop sender key r).station.chunker = r.station.chunker ∧
    (decideDrop sender key r).station.exchange = r.station.exchange ∧
    (decideDrop sender key r).station.bus = r.station.bus ∧
    (decideDrop sender key r).station.roster = r.station.roster ∧
    (decideDrop sender key r).station.clock = r.station.clock ∧
    (decideDrop sender key r).station.torn = r.station.torn := by
  unfold decideDrop; dsimp only; (repeat' split) <;> simp [Station.releaseClaim_blocks]

theorem decideExpiry_blocks (p : ClaimPos) (c : Claim) (r : BucketRead) :
    (decideExpiry p c r).station.port = r.station.port ∧ (decideExpiry p c r).station.fetch = r.station.fetch ∧
    (decideExpiry p c r).station.lane = r.station.lane ∧ (decideExpiry p c r).station.chunker = r.station.chunker ∧
    (decideExpiry p c r).station.exchange = r.station.exchange ∧ (decideExpiry p c r).station.bus = r.station.bus ∧
    (decideExpiry p c r).station.roster = r.station.roster ∧ (decideExpiry p c r).station.clock = r.station.clock ∧
    (decideExpiry p c r).station.torn = r.station.torn := by
  unfold decideExpiry; simp [Station.releaseClaim_blocks]

theorem decideRelease_blocks (sender : Pair) (key : Key) (l : Locator) (r : BucketRead) :
    (decideRelease sender key l r).station.port = r.station.port ∧
    (decideRelease sender key l r).station.fetch = r.station.fetch ∧
    (decideRelease sender key l r).station.lane = r.station.lane ∧
    (decideRelease sender key l r).station.chunker = r.station.chunker ∧
    (decideRelease sender key l r).station.exchange = r.station.exchange ∧
    (decideRelease sender key l r).station.bus = r.station.bus ∧
    (decideRelease sender key l r).station.roster = r.station.roster ∧
    (decideRelease sender key l r).station.clock = r.station.clock ∧
    (decideRelease sender key l r).station.torn = r.station.torn := by
  unfold decideRelease; dsimp only; (repeat' split) <;> simp

theorem Station.clearPeer_acc (peer : StationNo) (ps : List ClaimPos) (acc : List Answer × Station) :
    (ps.foldl (Station.clearPeerAt peer) acc).2.port = acc.2.port ∧
    (ps.foldl (Station.clearPeerAt peer) acc).2.fetch = acc.2.fetch ∧
    (ps.foldl (Station.clearPeerAt peer) acc).2.lane = acc.2.lane ∧
    (ps.foldl (Station.clearPeerAt peer) acc).2.chunker = acc.2.chunker ∧
    (ps.foldl (Station.clearPeerAt peer) acc).2.exchange = acc.2.exchange ∧
    (ps.foldl (Station.clearPeerAt peer) acc).2.bus = acc.2.bus ∧
    (ps.foldl (Station.clearPeerAt peer) acc).2.roster = acc.2.roster ∧
    (ps.foldl (Station.clearPeerAt peer) acc).2.clock = acc.2.clock ∧
    (ps.foldl (Station.clearPeerAt peer) acc).2.torn = acc.2.torn := by
  induction ps generalizing acc with
  | nil => simp
  | cons p ps ih =>
    rw [List.foldl_cons]
    have : (Station.clearPeerAt peer acc p).2.port = acc.2.port ∧ (Station.clearPeerAt peer acc p).2.fetch = acc.2.fetch ∧
    (Station.clearPeerAt peer acc p).2.lane = acc.2.lane ∧
    (Station.clearPeerAt peer acc p).2.chunker = acc.2.chunker ∧
    (Station.clearPeerAt peer acc p).2.exchange = acc.2.exchange ∧
    (Station.clearPeerAt peer acc p).2.bus = acc.2.bus ∧ (Station.clearPeerAt peer acc p).2.roster = acc.2.roster ∧
    (Station.clearPeerAt peer acc p).2.clock = acc.2.clock ∧ (Station.clearPeerAt peer acc p).2.torn = acc.2.torn := by
      unfold Station.clearPeerAt; dsimp only; (repeat' split) <;> simp [Station.releaseClaim_blocks]
    simpa [this] using ih (Station.clearPeerAt peer acc p)

@[simp] theorem Station.clearPeer_blocks (peer : StationNo) (s : Station) :
    (s.clearPeer peer).port = s.port ∧ (s.clearPeer peer).fetch = s.fetch ∧ (s.clearPeer peer).lane = s.lane ∧
    (s.clearPeer peer).chunker = s.chunker ∧ (s.clearPeer peer).exchange = s.exchange ∧
    (s.clearPeer peer).bus = s.bus ∧ (s.clearPeer peer).roster = s.roster ∧ (s.clearPeer peer).clock = s.clock ∧
    (s.clearPeer peer).torn = s.torn := by
  unfold Station.clearPeer; simpa using Station.clearPeer_acc peer (List.finRange 128) ([], s)

theorem Station.handOnAnswer_blocks (a : Answer) (rest : List Answer) (s : Station) :
    (s.handOnAnswer a rest).port = s.port ∧ (s.handOnAnswer a rest).fetch = s.fetch ∧
    (s.handOnAnswer a rest).chunker = s.chunker ∧ (s.handOnAnswer a rest).roster = s.roster ∧
    (s.handOnAnswer a rest).clock = s.clock ∧ (s.handOnAnswer a rest).torn = s.torn := by
  unfold Station.handOnAnswer; dsimp only; (repeat' split) <;> simp

/-! ### The commands -/

theorem execColdRelease_frame {a} {b} {c} {d} {e} {s t : State} (h : exec (.coldRelease a b c d e) s = .next t) :
    t.station.port = s.station.settled.port ∧ t.station.fetch = s.station.settled.fetch ∧
    t.station.lane = s.station.settled.lane ∧ t.station.chunker = s.station.settled.chunker ∧
    t.station.exchange = s.station.settled.exchange ∧ t.station.index = s.station.settled.index ∧
    t.station.bus = s.station.settled.bus ∧ t.station.roster = s.station.settled.roster ∧
    t.station.clock = s.station.settled.clock ∧ t.station.torn = s.station.settled.torn := by
  cases h
  dsimp only
  (repeat' split) <;> simp

theorem execWarmRelease_frame {s t : State} (h : exec .warmRelease s = .next t) :
    t.station.port = s.station.settled.port ∧ t.station.fetch = s.station.settled.fetch ∧
    t.station.lane = s.station.settled.lane ∧ t.station.chunker = s.station.settled.chunker ∧
    t.station.exchange = s.station.settled.exchange ∧ t.station.index = s.station.settled.index ∧
    t.station.bus = s.station.settled.bus ∧ t.station.roster = s.station.settled.roster ∧
    t.station.clock = s.station.settled.clock ∧ t.station.torn = s.station.settled.torn := by
  cases h
  simp

theorem execStagingWrite_frame {i} {m} {v} {s t : State} (h : exec (.stagingWrite i m v) s = .next t) :
    t.station.control = s.station.settled.control ∧ t.station.fetch = s.station.settled.fetch ∧
    t.station.lane = s.station.settled.lane ∧ t.station.chunker = s.station.settled.chunker ∧
    t.station.exchange = s.station.settled.exchange ∧ t.station.index = s.station.settled.index ∧
    t.station.bus = s.station.settled.bus ∧ t.station.roster = s.station.settled.roster ∧
    t.station.clock = s.station.settled.clock ∧ t.station.torn = s.station.settled.torn := by
  cases h
  dsimp only
  (repeat' split) <;> simp

theorem execReportWordRead_frame {m} {s t : State} (h : exec (.reportWordRead m) s = .next t) :
    t.station.control = s.station.settled.control ∧ t.station.fetch = s.station.settled.fetch ∧
    t.station.lane = s.station.settled.lane ∧ t.station.chunker = s.station.settled.chunker ∧
    t.station.exchange = s.station.settled.exchange ∧ t.station.index = s.station.settled.index ∧
    t.station.bus = s.station.settled.bus ∧ t.station.roster = s.station.settled.roster ∧
    t.station.clock = s.station.settled.clock ∧ t.station.torn = s.station.settled.torn := by
  cases h
  dsimp only
  (repeat' split) <;> simp

theorem execStatusWordRead_frame {m} {s t : State} (h : exec (.statusWordRead m) s = .next t) :
    t.station.control = s.station.settled.control ∧ t.station.fetch = s.station.settled.fetch ∧
    t.station.lane = s.station.settled.lane ∧ t.station.chunker = s.station.settled.chunker ∧
    t.station.exchange = s.station.settled.exchange ∧ t.station.index = s.station.settled.index ∧
    t.station.bus = s.station.settled.bus ∧ t.station.roster = s.station.settled.roster ∧
    t.station.clock = s.station.settled.clock ∧ t.station.torn = s.station.settled.torn := by
  cases h
  dsimp only
  (repeat' split) <;> simp

theorem execCommandWordWrite_frame {m} {v} {s t : State} (h : exec (.commandWordWrite m v) s = .next t) :
    t.station.control = s.station.settled.control ∧ t.station.fetch = s.station.settled.fetch ∧
    t.station.lane = s.station.settled.lane ∧ t.station.chunker = s.station.settled.chunker ∧
    t.station.exchange = s.station.settled.exchange ∧ t.station.index = s.station.settled.index ∧
    t.station.bus = s.station.settled.bus ∧ t.station.roster = s.station.settled.roster ∧
    t.station.clock = s.station.settled.clock ∧ t.station.torn = s.station.settled.torn := by
  cases h
  dsimp only
  (repeat' split) <;> simp

theorem execPoolSet_frame {s t : State} (h : exec .poolSet s = .next t) :
    t.station.fetch = s.station.settled.fetch ∧ t.station.lane = s.station.settled.lane ∧
    t.station.chunker = s.station.settled.chunker ∧ t.station.exchange = s.station.settled.exchange ∧
    t.station.index = s.station.settled.index ∧ t.station.bus = s.station.settled.bus ∧
    t.station.roster = s.station.settled.roster ∧ t.station.clock = s.station.settled.clock ∧
    t.station.torn = s.station.settled.torn := by
  cases h
  have := Station.takeHead_keeps (g := fun x : Station => (x.fetch, x.lane, x.chunker, x.exchange, x.index, x.bus, x.roster, x.clock, x.torn))
    (s := s.station.settled) (code := 1)
    (decide := fun e t => some (t.decidePoolSet e))
    (fun _ _ => rfl) fun _ _ _ e => by cases e; simp
  simp only [Prod.mk.injEq] at this
  exact this

theorem execConfigure_frame {s t : State} (h : exec .configure s = .next t) :
    t.station.control = s.station.settled.control ∧ t.station.fetch = s.station.settled.fetch ∧
    t.station.lane = s.station.settled.lane ∧ t.station.chunker = s.station.settled.chunker ∧
    t.station.exchange = s.station.settled.exchange ∧ t.station.index = s.station.settled.index ∧
    t.station.bus = s.station.settled.bus ∧ t.station.roster = s.station.settled.roster ∧
    t.station.clock = s.station.settled.clock ∧ t.station.torn = s.station.settled.torn := by
  cases h
  have := Station.takeHead_keeps (g := fun x : Station => (x.control, x.fetch, x.lane, x.chunker, x.exchange, x.index, x.bus, x.roster, x.clock, x.torn))
    (s := s.station.settled) (code := 2)
    (decide := fun e t => some (t.decideConfigure e))
    (fun _ _ => rfl) fun _ _ _ e => by cases e; simp
  simp only [Prod.mk.injEq] at this
  exact this

theorem execStart_frame {s t : State} (h : exec .start s = .next t) :
    t.station.fetch = s.station.settled.fetch ∧ t.station.lane = s.station.settled.lane ∧
    t.station.chunker = s.station.settled.chunker ∧ t.station.exchange = s.station.settled.exchange ∧
    t.station.torn = s.station.settled.torn := by
  cases h
  have := Station.takeHead_keeps (g := fun x : Station => (x.fetch, x.lane, x.chunker, x.exchange, x.torn))
    (s := s.station.settled) (code := 3)
    (decide := Station.decideStart)
    (fun _ _ => rfl) fun _ _ _ e => by simp [Station.decideStart_blocks e]
  simp only [Prod.mk.injEq] at this
  exact this

theorem execStats_frame {s t : State} (h : exec .stats s = .next t) :
    t.station.fetch = s.station.settled.fetch ∧ t.station.lane = s.station.settled.lane ∧
    t.station.chunker = s.station.settled.chunker ∧ t.station.exchange = s.station.settled.exchange ∧
    t.station.index = s.station.settled.index ∧ t.station.bus = s.station.settled.bus ∧
    t.station.roster = s.station.settled.roster ∧ t.station.clock = s.station.settled.clock ∧
    t.station.torn = s.station.settled.torn := by
  cases h
  have := Station.takeHead_keeps (g := fun x : Station => (x.fetch, x.lane, x.chunker, x.exchange, x.index, x.bus, x.roster, x.clock, x.torn))
    (s := s.station.settled) (code := 4)
    (decide := fun _ t => t.decideStats)
    (fun _ _ => rfl) fun _ _ _ e => by simp [Station.decideStats_blocks e]
  simp only [Prod.mk.injEq] at this
  exact this

theorem execUnknownCommand_frame {s t : State} (h : exec .unknownCommand s = .next t) :
    t.station.control = s.station.settled.control ∧ t.station.fetch = s.station.settled.fetch ∧
    t.station.lane = s.station.settled.lane ∧ t.station.chunker = s.station.settled.chunker ∧
    t.station.exchange = s.station.settled.exchange ∧ t.station.index = s.station.settled.index ∧
    t.station.bus = s.station.settled.bus ∧ t.station.roster = s.station.settled.roster ∧
    t.station.clock = s.station.settled.clock ∧ t.station.torn = s.station.settled.torn := by
  cases h
  dsimp only
  (repeat' split) <;> simp

theorem execOpenLane_frame {s t : State} (h : exec .openLane s = .next t) :
    t.station.control = s.station.settled.control ∧ t.station.fetch = s.station.settled.fetch ∧
    t.station.exchange = s.station.settled.exchange ∧ t.station.index = s.station.settled.index ∧
    t.station.bus = s.station.settled.bus ∧ t.station.roster = s.station.settled.roster ∧
    t.station.clock = s.station.settled.clock ∧ t.station.torn = s.station.settled.torn := by
  cases h
  have := Station.takeLaneCommand_keeps (g := fun x : Station => (x.control, x.fetch, x.exchange, x.index, x.bus, x.roster, x.clock, x.torn))
    (s := s.station.settled) (code := 5)
    (decide := fun e t => t.setUpLane e.lane { stream := e.openStream, branch := e.openBranch })
    (fun _ _ => rfl) (fun _ _ _ _ => rfl) fun _ _ _ e => by simp [Station.setUpLane_blocks e]
  simp only [Prod.mk.injEq] at this
  exact this

theorem execResume_frame {s t : State} (h : exec .resume s = .next t) :
    t.station.control = s.station.settled.control ∧ t.station.fetch = s.station.settled.fetch ∧
    t.station.exchange = s.station.settled.exchange ∧ t.station.index = s.station.settled.index ∧
    t.station.bus = s.station.settled.bus ∧ t.station.roster = s.station.settled.roster ∧
    t.station.clock = s.station.settled.clock ∧ t.station.torn = s.station.settled.torn := by
  cases h
  have := Station.takeLaneCommand_keeps (g := fun x : Station => (x.control, x.fetch, x.exchange, x.index, x.bus, x.roster, x.clock, x.torn))
    (s := s.station.settled) (code := 11)
    (decide := fun e t => t.setUpLane e.lane e.parkedRecord)
    (fun _ _ => rfl) (fun _ _ _ _ => rfl) fun _ _ _ e => by simp [Station.setUpLane_blocks e]
  simp only [Prod.mk.injEq] at this
  exact this

theorem execSegment_frame {s t : State} (h : exec .segment s = .next t) :
    t.station.control = s.station.settled.control ∧ t.station.fetch = s.station.settled.fetch ∧
    t.station.chunker = s.station.settled.chunker ∧ t.station.exchange = s.station.settled.exchange ∧
    t.station.index = s.station.settled.index ∧ t.station.bus = s.station.settled.bus ∧
    t.station.roster = s.station.settled.roster ∧ t.station.clock = s.station.settled.clock ∧
    t.station.torn = s.station.settled.torn := by
  cases h
  have := Station.takeLaneCommand_keeps (g := fun x : Station => (x.control, x.fetch, x.chunker, x.exchange, x.index, x.bus, x.roster, x.clock, x.torn))
    (s := s.station.settled) (code := 6)
    (decide := fun e t => t.decideSegment e)
    (fun _ _ => rfl) (fun _ _ _ _ => rfl) fun _ _ _ e => by simp [Station.decideSegment_blocks e]
  simp only [Prod.mk.injEq] at this
  exact this

theorem execStored_frame {s t : State} (h : exec .stored s = .next t) :
    t.station.control = s.station.settled.control ∧ t.station.fetch = s.station.settled.fetch ∧
    t.station.chunker = s.station.settled.chunker ∧ t.station.index = s.station.settled.index ∧
    t.station.bus = s.station.settled.bus ∧ t.station.roster = s.station.settled.roster ∧
    t.station.clock = s.station.settled.clock ∧ t.station.torn = s.station.settled.torn := by
  cases h
  have := Station.takeLaneCommand_keeps (g := fun x : Station => (x.control, x.fetch, x.chunker, x.index, x.bus, x.roster, x.clock, x.torn))
    (s := s.station.settled) (code := 7)
    (decide := fun e t => t.decideStored e)
    (fun _ _ => rfl) (fun _ _ _ _ => rfl) fun _ _ _ e => by simp [Station.decideStored_blocks e]
  simp only [Prod.mk.injEq] at this
  exact this

theorem execStoreFailed_frame {s t : State} (h : exec .storeFailed s = .next t) :
    t.station.control = s.station.settled.control ∧ t.station.fetch = s.station.settled.fetch ∧
    t.station.index = s.station.settled.index ∧ t.station.bus = s.station.settled.bus ∧
    t.station.roster = s.station.settled.roster ∧ t.station.clock = s.station.settled.clock ∧
    t.station.torn = s.station.settled.torn := by
  cases h
  have := Station.takeLaneCommand_keeps (g := fun x : Station => (x.control, x.fetch, x.index, x.bus, x.roster, x.clock, x.torn))
    (s := s.station.settled) (code := 8)
    (decide := fun e t => t.decideStoreFailed e)
    (fun _ _ => rfl) (fun _ _ _ _ => rfl) fun _ _ _ e => by simp [Station.decideStoreFailed_blocks e]
  simp only [Prod.mk.injEq] at this
  exact this

theorem execAbort_frame {s t : State} (h : exec .abort s = .next t) :
    t.station.control = s.station.settled.control ∧ t.station.fetch = s.station.settled.fetch ∧
    t.station.index = s.station.settled.index ∧ t.station.bus = s.station.settled.bus ∧
    t.station.roster = s.station.settled.roster ∧ t.station.clock = s.station.settled.clock ∧
    t.station.torn = s.station.settled.torn := by
  cases h
  have := Station.takeLaneCommand_keeps (g := fun x : Station => (x.control, x.fetch, x.index, x.bus, x.roster, x.clock, x.torn))
    (s := s.station.settled) (code := 12)
    (decide := fun e t => t.decideAbort e)
    (fun _ _ => rfl) (fun _ _ _ _ => rfl) fun _ _ _ e => by simp [Station.decideAbort_blocks e]
  simp only [Prod.mk.injEq] at this
  exact this

theorem execClose_frame {s t : State} (h : exec .close s = .next t) :
    t.station.control = s.station.settled.control ∧ t.station.fetch = s.station.settled.fetch ∧
    t.station.exchange = s.station.settled.exchange ∧ t.station.index = s.station.settled.index ∧
    t.station.bus = s.station.settled.bus ∧ t.station.roster = s.station.settled.roster ∧
    t.station.clock = s.station.settled.clock ∧ t.station.torn = s.station.settled.torn := by
  cases h
  have := Station.takeLaneCommand_keeps (g := fun x : Station => (x.control, x.fetch, x.exchange, x.index, x.bus, x.roster, x.clock, x.torn))
    (s := s.station.settled) (code := 9)
    (decide := fun e t => t.endLane .closing e.lane)
    (fun _ _ => rfl) (fun _ _ _ _ => rfl) fun _ _ _ e => by simp [Station.endLane_blocks e]
  simp only [Prod.mk.injEq] at this
  exact this

theorem execSuspend_frame {s t : State} (h : exec .suspend s = .next t) :
    t.station.control = s.station.settled.control ∧ t.station.fetch = s.station.settled.fetch ∧
    t.station.exchange = s.station.settled.exchange ∧ t.station.index = s.station.settled.index ∧
    t.station.bus = s.station.settled.bus ∧ t.station.roster = s.station.settled.roster ∧
    t.station.clock = s.station.settled.clock ∧ t.station.torn = s.station.settled.torn := by
  cases h
  have := Station.takeLaneCommand_keeps (g := fun x : Station => (x.control, x.fetch, x.exchange, x.index, x.bus, x.roster, x.clock, x.torn))
    (s := s.station.settled) (code := 10)
    (decide := fun e t => t.endLane .suspending e.lane)
    (fun _ _ => rfl) (fun _ _ _ _ => rfl) fun _ _ _ e => by simp [Station.endLane_blocks e]
  simp only [Prod.mk.injEq] at this
  exact this

theorem execRelease_frame {s t : State} (h : exec .release s = .next t) :
    t.station.control = s.station.settled.control ∧ t.station.fetch = s.station.settled.fetch ∧
    t.station.lane = s.station.settled.lane ∧ t.station.chunker = s.station.settled.chunker ∧
    t.station.index = s.station.settled.index ∧ t.station.bus = s.station.settled.bus ∧
    t.station.roster = s.station.settled.roster ∧ t.station.clock = s.station.settled.clock ∧
    t.station.torn = s.station.settled.torn := by
  cases h
  have := Station.takeHead_keeps (g := fun x : Station => (x.control, x.fetch, x.lane, x.chunker, x.index, x.bus, x.roster, x.clock, x.torn))
    (s := s.station.settled) (code := 13)
    (decide := Station.decideRelease)
    (fun _ _ => rfl) fun _ _ _ e => by simp [Station.decideRelease_blocks e]
  simp only [Prod.mk.injEq] at this
  exact this

theorem execLeaseTick_frame {s t : State} (h : exec .leaseTick s = .next t) :
    t.station.control = s.station.settled.control ∧ t.station.port = s.station.settled.port ∧
    t.station.fetch = s.station.settled.fetch ∧ t.station.lane = s.station.settled.lane ∧
    t.station.chunker = s.station.settled.chunker ∧ t.station.exchange = s.station.settled.exchange ∧
    t.station.index = s.station.settled.index ∧ t.station.bus = s.station.settled.bus ∧
    t.station.roster = s.station.settled.roster ∧ t.station.torn = s.station.settled.torn := by
  cases h
  dsimp only
  (repeat' split) <;> simp

theorem execLeaseDeadline_frame {p} {s t : State} (h : exec (.leaseDeadline p) s = .next t) :
    t.station.control = s.station.control ∧ t.station.port = s.station.port ∧ t.station.fetch = s.station.fetch ∧
    t.station.lane = s.station.lane ∧ t.station.chunker = s.station.chunker ∧
    t.station.exchange = s.station.exchange ∧ t.station.bus = s.station.bus ∧ t.station.roster = s.station.roster ∧
    t.station.torn = s.station.torn := by
  cases h
  have := Station.takeDeadline_keeps (g := fun x : Station => (x.control, x.port, x.fetch, x.lane, x.chunker, x.exchange, x.bus, x.roster, x.torn))
    (s := s.station) (d := .claim p)
    (act := Station.markDue p)
    (fun _ _ => rfl) fun x => by simp
  simp only [Prod.mk.injEq] at this
  exact this

theorem execLeaseExpiry_frame {s t : State} (h : exec .leaseExpiry s = .next t) :
    t.station.port = s.station.settled.port ∧ t.station.fetch = s.station.settled.fetch ∧
    t.station.lane = s.station.settled.lane ∧ t.station.chunker = s.station.settled.chunker ∧
    t.station.exchange = s.station.settled.exchange ∧ t.station.bus = s.station.settled.bus ∧
    t.station.roster = s.station.settled.roster ∧ t.station.clock = s.station.settled.clock ∧
    t.station.torn = s.station.settled.torn := by
  cases h
  dsimp only
  split
  · split
    · split
      · exact bucketOperation_blocks _ _ _ fun r => decideExpiry_blocks _ _ r
      · simp
    · simp
  · simp

theorem execAsk_frame {s t : State} (h : exec .ask s = .next t) :
    t.station.port = s.station.settled.port ∧ t.station.fetch = s.station.settled.fetch ∧
    t.station.lane = s.station.settled.lane ∧ t.station.chunker = s.station.settled.chunker ∧
    t.station.exchange = s.station.settled.exchange ∧ t.station.bus = s.station.settled.bus ∧
    t.station.roster = s.station.settled.roster ∧ t.station.clock = s.station.settled.clock ∧
    t.station.torn = s.station.settled.torn := by
  cases h
  have := Station.takeItem_keeps (g := fun x : Station => (x.port, x.fetch, x.lane, x.chunker, x.exchange, x.bus, x.roster, x.clock, x.torn))
    (s := s.station.settled) (select := fun | .ask sender key => some (sender, key) | _ => none)
    (act := fun x t => t.bucketOperation (bucketIndex x.2) (decideAsk x.1 x.2))
    (fun _ _ => rfl) fun _ x => by simp [bucketOperation_blocks _ _ x fun r => decideAsk_blocks _ _ r]
  simp only [Prod.mk.injEq] at this
  exact this

theorem execCommit_frame {s t : State} (h : exec .commit s = .next t) :
    t.station.port = s.station.settled.port ∧ t.station.fetch = s.station.settled.fetch ∧
    t.station.lane = s.station.settled.lane ∧ t.station.chunker = s.station.settled.chunker ∧
    t.station.exchange = s.station.settled.exchange ∧ t.station.bus = s.station.settled.bus ∧
    t.station.roster = s.station.settled.roster ∧ t.station.clock = s.station.settled.clock ∧
    t.station.torn = s.station.settled.torn := by
  cases h
  have := Station.takeItem_keeps (g := fun x : Station => (x.port, x.fetch, x.lane, x.chunker, x.exchange, x.bus, x.roster, x.clock, x.torn))
    (s := s.station.settled) (select := fun | .commit sender key locator => some (sender, key, locator) | _ => none)
    (act := fun x t => t.bucketOperation (bucketIndex x.2.1) (decideCommit x.1 x.2.1 x.2.2))
    (fun _ _ => rfl) fun _ x => by simp [bucketOperation_blocks _ _ x fun r => decideCommit_blocks _ _ _ r]
  simp only [Prod.mk.injEq] at this
  exact this

theorem execDrop_frame {s t : State} (h : exec .drop s = .next t) :
    t.station.port = s.station.settled.port ∧ t.station.fetch = s.station.settled.fetch ∧
    t.station.lane = s.station.settled.lane ∧ t.station.chunker = s.station.settled.chunker ∧
    t.station.exchange = s.station.settled.exchange ∧ t.station.bus = s.station.settled.bus ∧
    t.station.roster = s.station.settled.roster ∧ t.station.clock = s.station.settled.clock ∧
    t.station.torn = s.station.settled.torn := by
  cases h
  have := Station.takeItem_keeps (g := fun x : Station => (x.port, x.fetch, x.lane, x.chunker, x.exchange, x.bus, x.roster, x.clock, x.torn))
    (s := s.station.settled) (select := fun | .drop sender key => some (sender, key) | _ => none)
    (act := fun x t => t.bucketOperation (bucketIndex x.2) (decideDrop x.1 x.2))
    (fun _ _ => rfl) fun _ x => by simp [bucketOperation_blocks _ _ x fun r => decideDrop_blocks _ _ r]
  simp only [Prod.mk.injEq] at this
  exact this

theorem execReleaseItem_frame {s t : State} (h : exec .releaseItem s = .next t) :
    t.station.port = s.station.settled.port ∧ t.station.fetch = s.station.settled.fetch ∧
    t.station.lane = s.station.settled.lane ∧ t.station.chunker = s.station.settled.chunker ∧
    t.station.exchange = s.station.settled.exchange ∧ t.station.bus = s.station.settled.bus ∧
    t.station.roster = s.station.settled.roster ∧ t.station.clock = s.station.settled.clock ∧
    t.station.torn = s.station.settled.torn := by
  cases h
  have := Station.takeItem_keeps (g := fun x : Station => (x.port, x.fetch, x.lane, x.chunker, x.exchange, x.bus, x.roster, x.clock, x.torn))
    (s := s.station.settled) (select := fun | .release sender key locator => some (sender, key, locator) | _ => none)
    (act := fun x t => t.bucketOperation (bucketIndex x.2.1) (decideRelease x.1 x.2.1 x.2.2))
    (fun _ _ => rfl) fun _ x => by simp [bucketOperation_blocks _ _ x fun r => decideRelease_blocks _ _ _ r]
  simp only [Prod.mk.injEq] at this
  exact this

theorem execPeerLost_frame {s t : State} (h : exec .peerLost s = .next t) :
    t.station.port = s.station.settled.port ∧ t.station.fetch = s.station.settled.fetch ∧
    t.station.lane = s.station.settled.lane ∧ t.station.chunker = s.station.settled.chunker ∧
    t.station.exchange = s.station.settled.exchange ∧ t.station.bus = s.station.settled.bus ∧
    t.station.roster = s.station.settled.roster ∧ t.station.clock = s.station.settled.clock ∧
    t.station.torn = s.station.settled.torn := by
  cases h
  have := Station.takeItem_keeps (g := fun x : Station => (x.port, x.fetch, x.lane, x.chunker, x.exchange, x.bus, x.roster, x.clock, x.torn))
    (s := s.station.settled) (select := fun | .peerLost peer => some peer | _ => none)
    (act := Station.clearPeer)
    (fun _ _ => rfl) fun _ x => by simp
  simp only [Prod.mk.injEq] at this
  exact this

theorem execPeerRestarted_frame {s t : State} (h : exec .peerRestarted s = .next t) :
    t.station.port = s.station.settled.port ∧ t.station.fetch = s.station.settled.fetch ∧
    t.station.lane = s.station.settled.lane ∧ t.station.chunker = s.station.settled.chunker ∧
    t.station.exchange = s.station.settled.exchange ∧ t.station.bus = s.station.settled.bus ∧
    t.station.roster = s.station.settled.roster ∧ t.station.clock = s.station.settled.clock ∧
    t.station.torn = s.station.settled.torn := by
  cases h
  have := Station.takeItem_keeps (g := fun x : Station => (x.port, x.fetch, x.lane, x.chunker, x.exchange, x.bus, x.roster, x.clock, x.torn))
    (s := s.station.settled) (select := fun | .peerRestarted peer => some peer | _ => none)
    (act := Station.clearPeer)
    (fun _ _ => rfl) fun _ x => by simp
  simp only [Prod.mk.injEq] at this
  exact this

theorem execBucketWriteDone_frame {s t : State} (h : exec .bucketWriteDone s = .next t) :
    t.station.control = s.station.settled.control ∧ t.station.port = s.station.settled.port ∧
    t.station.fetch = s.station.settled.fetch ∧ t.station.lane = s.station.settled.lane ∧
    t.station.chunker = s.station.settled.chunker ∧ t.station.exchange = s.station.settled.exchange ∧
    t.station.bus = s.station.settled.bus ∧ t.station.roster = s.station.settled.roster ∧
    t.station.clock = s.station.settled.clock ∧ t.station.torn = s.station.settled.torn := by
  cases h
  dsimp only
  (repeat' split) <;> simp

theorem execAnswerHandOn_frame {s t : State} (h : exec .answerHandOn s = .next t) :
    t.station.port = s.station.settled.port ∧ t.station.fetch = s.station.settled.fetch ∧
    t.station.chunker = s.station.settled.chunker ∧ t.station.roster = s.station.settled.roster ∧
    t.station.clock = s.station.settled.clock ∧ t.station.torn = s.station.settled.torn := by
  cases h
  dsimp only
  (repeat' split) <;> simp [Station.handOnAnswer_blocks]

theorem execWorkQueueAdmit_frame {s t : State} (h : exec .workQueueAdmit s = .next t) :
    t.station.control = s.station.settled.control ∧ t.station.port = s.station.settled.port ∧
    t.station.fetch = s.station.settled.fetch ∧ t.station.lane = s.station.settled.lane ∧
    t.station.chunker = s.station.settled.chunker ∧ t.station.clock = s.station.settled.clock ∧
    t.station.torn = s.station.settled.torn := by
  cases h
  dsimp only
  (repeat' split) <;> simp

theorem execScrubWriteDone_frame {s t : State} (h : exec .scrubWriteDone s = .next t) :
    t.station.port = s.station.settled.port ∧ t.station.fetch = s.station.settled.fetch ∧
    t.station.lane = s.station.settled.lane ∧ t.station.chunker = s.station.settled.chunker ∧
    t.station.exchange = s.station.settled.exchange ∧ t.station.clock = s.station.settled.clock ∧
    t.station.torn = s.station.settled.torn := by
  cases h
  dsimp only
  (repeat' split) <;> simp

theorem execBurstIssue_frame {m} {s t : State} (h : exec (.burstIssue m) s = .next t) :
    t.station.control = s.station.settled.control ∧ t.station.port = s.station.settled.port ∧
    t.station.lane = s.station.settled.lane ∧ t.station.exchange = s.station.settled.exchange ∧
    t.station.index = s.station.settled.index ∧ t.station.bus = s.station.settled.bus ∧
    t.station.roster = s.station.settled.roster ∧ t.station.clock = s.station.settled.clock ∧
    t.station.torn = s.station.settled.torn := by
  cases h
  dsimp only
  (repeat' split) <;> simp

theorem execFetchReadCompletion_frame {r} {o} {d} {g} {s t : State} (h : exec (.fetchReadCompletion r o d g) s = .next t) :
    t.station.control = s.station.settled.control ∧ t.station.port = s.station.settled.port ∧
    t.station.lane = s.station.settled.lane ∧ t.station.chunker = s.station.settled.chunker ∧
    t.station.exchange = s.station.settled.exchange ∧ t.station.index = s.station.settled.index ∧
    t.station.bus = s.station.settled.bus ∧ t.station.roster = s.station.settled.roster ∧
    t.station.clock = s.station.settled.clock ∧ t.station.torn = s.station.settled.torn := by
  cases h
  simp

theorem execFetchTimeout_frame {r} {s t : State} (h : exec (.fetchTimeout r) s = .next t) :
    t.station.control = s.station.settled.control ∧ t.station.port = s.station.settled.port ∧
    t.station.lane = s.station.settled.lane ∧ t.station.chunker = s.station.settled.chunker ∧
    t.station.exchange = s.station.settled.exchange ∧ t.station.index = s.station.settled.index ∧
    t.station.bus = s.station.settled.bus ∧ t.station.roster = s.station.settled.roster ∧
    t.station.clock = s.station.settled.clock ∧ t.station.torn = s.station.settled.torn := by
  cases h
  simp

theorem execBurstCompletion_frame {s t : State} (h : exec .burstCompletion s = .next t) :
    t.station.control = s.station.settled.control ∧ t.station.port = s.station.settled.port ∧
    t.station.index = s.station.settled.index ∧ t.station.bus = s.station.settled.bus ∧
    t.station.roster = s.station.settled.roster ∧ t.station.clock = s.station.settled.clock ∧
    t.station.torn = s.station.settled.torn := by
  cases h
  dsimp only
  (repeat' split) <;> simp

theorem execDigestStart_frame {s t : State} (h : exec .digestStart s = .next t) :
    t.station.control = s.station.settled.control ∧ t.station.port = s.station.settled.port ∧
    t.station.fetch = s.station.settled.fetch ∧ t.station.lane = s.station.settled.lane ∧
    t.station.exchange = s.station.settled.exchange ∧ t.station.index = s.station.settled.index ∧
    t.station.bus = s.station.settled.bus ∧ t.station.roster = s.station.settled.roster ∧
    t.station.clock = s.station.settled.clock ∧ t.station.torn = s.station.settled.torn := by
  cases h
  dsimp only
  (repeat' split) <;> simp

theorem execDigestCompletion_frame {s t : State} (h : exec .digestCompletion s = .next t) :
    t.station.port = s.station.settled.port ∧ t.station.fetch = s.station.settled.fetch ∧
    t.station.index = s.station.settled.index ∧ t.station.bus = s.station.settled.bus ∧
    t.station.roster = s.station.settled.roster ∧ t.station.clock = s.station.settled.clock ∧
    t.station.torn = s.station.settled.torn := by
  cases h
  dsimp only
  (repeat' split) <;> simp

theorem execTagGrant_frame {s t : State} (h : exec .tagGrant s = .next t) :
    t.station.port = s.station.settled.port ∧ t.station.fetch = s.station.settled.fetch ∧
    t.station.chunker = s.station.settled.chunker ∧ t.station.index = s.station.settled.index ∧
    t.station.bus = s.station.settled.bus ∧ t.station.roster = s.station.settled.roster ∧
    t.station.clock = s.station.settled.clock ∧ t.station.torn = s.station.settled.torn := by
  cases h
  dsimp only
  (repeat' split) <;> simp

theorem execRequestHandOn_frame {w} {s t : State} (h : exec (.requestHandOn w) s = .next t) :
    t.station.control = s.station.settled.control ∧ t.station.port = s.station.settled.port ∧
    t.station.fetch = s.station.settled.fetch ∧ t.station.lane = s.station.settled.lane ∧
    t.station.chunker = s.station.settled.chunker ∧ t.station.roster = s.station.settled.roster ∧
    t.station.clock = s.station.settled.clock ∧ t.station.torn = s.station.settled.torn := by
  cases h
  dsimp only
  (repeat' split) <;> simp

theorem execAnswerDeadline_frame {i} {s t : State} (h : exec (.answerDeadline i) s = .next t) :
    t.station.port = s.station.port ∧ t.station.fetch = s.station.fetch ∧ t.station.chunker = s.station.chunker ∧
    t.station.index = s.station.index ∧ t.station.bus = s.station.bus ∧ t.station.roster = s.station.roster ∧
    t.station.torn = s.station.torn := by
  cases h
  unfold Station.takeEntryDeadline
  split
  · have := Station.takeDeadline_keeps (g := fun x : Station => (x.port, x.fetch, x.chunker, x.index, x.bus, x.roster, x.torn))
      (s := s.station) (d := .entry i)
      (act := Station.expireEntry .answer i)
      (fun _ _ => rfl) fun x => by simp
    simp only [Prod.mk.injEq] at this
    exact this
  · simp

theorem execHoldDeadline_frame {i} {s t : State} (h : exec (.holdDeadline i) s = .next t) :
    t.station.port = s.station.port ∧ t.station.fetch = s.station.fetch ∧ t.station.chunker = s.station.chunker ∧
    t.station.index = s.station.index ∧ t.station.bus = s.station.bus ∧ t.station.roster = s.station.roster ∧
    t.station.torn = s.station.torn := by
  cases h
  unfold Station.takeEntryDeadline
  split
  · have := Station.takeDeadline_keeps (g := fun x : Station => (x.port, x.fetch, x.chunker, x.index, x.bus, x.roster, x.torn))
      (s := s.station) (d := .entry i)
      (act := Station.expireEntry .hold i)
      (fun _ _ => rfl) fun x => by simp
    simp only [Prod.mk.injEq] at this
    exact this
  · simp

theorem execOrphanHoldDeadline_frame {i} {s t : State} (h : exec (.orphanHoldDeadline i) s = .next t) :
    t.station.port = s.station.port ∧ t.station.fetch = s.station.fetch ∧ t.station.chunker = s.station.chunker ∧
    t.station.index = s.station.index ∧ t.station.bus = s.station.bus ∧ t.station.roster = s.station.roster ∧
    t.station.torn = s.station.torn := by
  cases h
  unfold Station.takeEntryDeadline
  split
  · have := Station.takeDeadline_keeps (g := fun x : Station => (x.port, x.fetch, x.chunker, x.index, x.bus, x.roster, x.torn))
      (s := s.station) (d := .entry i)
      (act := Station.expireEntry .orphanHold i)
      (fun _ _ => rfl) fun x => by simp
    simp only [Prod.mk.injEq] at this
    exact this
  · simp

theorem execExchangeReportReady_frame {s t : State} (h : exec .exchangeReportReady s = .next t) :
    t.station.control = s.station.settled.control ∧ t.station.port = s.station.settled.port ∧
    t.station.fetch = s.station.settled.fetch ∧ t.station.lane = s.station.settled.lane ∧
    t.station.chunker = s.station.settled.chunker ∧ t.station.index = s.station.settled.index ∧
    t.station.bus = s.station.settled.bus ∧ t.station.roster = s.station.settled.roster ∧
    t.station.clock = s.station.settled.clock ∧ t.station.torn = s.station.settled.torn := by
  cases h
  dsimp only
  (repeat' split) <;> simp

theorem execLaneReportReady_frame {s t : State} (h : exec .laneReportReady s = .next t) :
    t.station.control = s.station.settled.control ∧ t.station.port = s.station.settled.port ∧
    t.station.fetch = s.station.settled.fetch ∧ t.station.chunker = s.station.settled.chunker ∧
    t.station.exchange = s.station.settled.exchange ∧ t.station.index = s.station.settled.index ∧
    t.station.bus = s.station.settled.bus ∧ t.station.roster = s.station.settled.roster ∧
    t.station.clock = s.station.settled.clock ∧ t.station.torn = s.station.settled.torn := by
  cases h
  dsimp only
  (repeat' split) <;> simp

theorem execReportAppend_frame {s t : State} (h : exec .reportAppend s = .next t) :
    t.station.fetch = s.station.settled.fetch ∧ t.station.chunker = s.station.settled.chunker ∧
    t.station.bus = s.station.settled.bus ∧ t.station.clock = s.station.settled.clock ∧
    t.station.torn = s.station.settled.torn := by
  cases h
  dsimp only
  (repeat' split) <;> simp

theorem execContention_frame {n} {r} {s t : State} (h : exec (.contention n r) s = .next t) :
    t.station.control = s.station.settled.control ∧ t.station.port = s.station.settled.port ∧
    t.station.fetch = s.station.settled.fetch ∧ t.station.lane = s.station.settled.lane ∧
    t.station.chunker = s.station.settled.chunker ∧ t.station.exchange = s.station.settled.exchange ∧
    t.station.index = s.station.settled.index ∧ t.station.roster = s.station.settled.roster ∧
    t.station.clock = s.station.settled.clock ∧ t.station.torn = s.station.settled.torn := by
  cases h
  dsimp only
  (repeat' split) <;> simp

theorem execAttemptEnd_frame {l} {a} {s t : State} (h : exec (.attemptEnd l a) s = .next t) :
    t.station.port = s.station.settled.port ∧ t.station.fetch = s.station.settled.fetch ∧
    t.station.chunker = s.station.settled.chunker ∧ t.station.index = s.station.settled.index ∧
    t.station.clock = s.station.settled.clock ∧ t.station.torn = s.station.settled.torn := by
  cases h
  dsimp only
  (repeat' split) <;> simp

theorem execYieldClear_frame {n} {s t : State} (h : exec (.yieldClear n) s = .next t) :
    t.station.control = s.station.settled.control ∧ t.station.port = s.station.settled.port ∧
    t.station.fetch = s.station.settled.fetch ∧ t.station.lane = s.station.settled.lane ∧
    t.station.chunker = s.station.settled.chunker ∧ t.station.exchange = s.station.settled.exchange ∧
    t.station.index = s.station.settled.index ∧ t.station.roster = s.station.settled.roster ∧
    t.station.clock = s.station.settled.clock ∧ t.station.torn = s.station.settled.torn := by
  cases h
  dsimp only
  (repeat' split) <;> simp

theorem execFrameReceived_frame {n} {l} {s t : State} (h : exec (.frameReceived n l) s = .next t) :
    t.station.port = s.station.settled.port ∧ t.station.fetch = s.station.settled.fetch ∧
    t.station.lane = s.station.settled.lane ∧ t.station.chunker = s.station.settled.chunker ∧
    t.station.exchange = s.station.settled.exchange ∧ t.station.index = s.station.settled.index ∧
    t.station.clock = s.station.settled.clock ∧ t.station.torn = s.station.settled.torn := by
  cases h
  dsimp only
  (repeat' split) <;> simp

theorem execFrameAbandoned_frame {n} {s t : State} (h : exec (.frameAbandoned n) s = .next t) :
    t.station.port = s.station.settled.port ∧ t.station.fetch = s.station.settled.fetch ∧
    t.station.lane = s.station.settled.lane ∧ t.station.chunker = s.station.settled.chunker ∧
    t.station.exchange = s.station.settled.exchange ∧ t.station.index = s.station.settled.index ∧
    t.station.bus = s.station.settled.bus ∧ t.station.roster = s.station.settled.roster ∧
    t.station.clock = s.station.settled.clock ∧ t.station.torn = s.station.settled.torn := by
  cases h
  dsimp only
  (repeat' split) <;> simp

theorem execInboundDispatch_frame {s t : State} (h : exec .inboundDispatch s = .next t) :
    t.station.port = s.station.settled.port ∧ t.station.fetch = s.station.settled.fetch ∧
    t.station.chunker = s.station.settled.chunker ∧ t.station.clock = s.station.settled.clock ∧
    t.station.torn = s.station.settled.torn := by
  cases h
  dsimp only
  (repeat' split) <;> simp

theorem execSilenceDeadline_frame {p} {s t : State} (h : exec (.silenceDeadline p) s = .next t) :
    t.station.control = s.station.control ∧ t.station.port = s.station.port ∧ t.station.fetch = s.station.fetch ∧
    t.station.lane = s.station.lane ∧ t.station.chunker = s.station.chunker ∧
    t.station.exchange = s.station.exchange ∧ t.station.index = s.station.index ∧ t.station.bus = s.station.bus ∧
    t.station.torn = s.station.torn := by
  cases h
  have := Station.takeDeadline_keeps (g := fun x : Station => (x.control, x.port, x.fetch, x.lane, x.chunker, x.exchange, x.index, x.bus, x.torn))
    (s := s.station) (d := .peer p)
    (act := Station.markSilence p)
    (fun _ _ => rfl) fun x => by simp
  simp only [Prod.mk.injEq] at this
  exact this

theorem execPeerSilent_frame {s t : State} (h : exec .peerSilent s = .next t) :
    t.station.port = s.station.settled.port ∧ t.station.fetch = s.station.settled.fetch ∧
    t.station.chunker = s.station.settled.chunker ∧ t.station.clock = s.station.settled.clock ∧
    t.station.torn = s.station.settled.torn := by
  cases h
  dsimp only
  (repeat' split) <;> simp

theorem execPeerJoin_frame {s t : State} (h : exec .peerJoin s = .next t) :
    t.station.control = s.station.settled.control ∧ t.station.port = s.station.settled.port ∧
    t.station.fetch = s.station.settled.fetch ∧ t.station.lane = s.station.settled.lane ∧
    t.station.chunker = s.station.settled.chunker ∧ t.station.exchange = s.station.settled.exchange ∧
    t.station.index = s.station.settled.index ∧ t.station.bus = s.station.settled.bus ∧
    t.station.clock = s.station.settled.clock ∧ t.station.torn = s.station.settled.torn := by
  cases h
  dsimp only
  (repeat' split) <;> simp

theorem execBeaconTaken_frame {s t : State} (h : exec .beaconTaken s = .next t) :
    t.station.port = s.station.settled.port ∧ t.station.fetch = s.station.settled.fetch ∧
    t.station.chunker = s.station.settled.chunker ∧ t.station.clock = s.station.settled.clock ∧
    t.station.torn = s.station.settled.torn := by
  cases h
  simp

theorem execConflictReport_frame {s t : State} (h : exec .conflictReport s = .next t) :
    t.station.control = s.station.settled.control ∧ t.station.port = s.station.settled.port ∧
    t.station.fetch = s.station.settled.fetch ∧ t.station.lane = s.station.settled.lane ∧
    t.station.chunker = s.station.settled.chunker ∧ t.station.exchange = s.station.settled.exchange ∧
    t.station.index = s.station.settled.index ∧ t.station.bus = s.station.settled.bus ∧
    t.station.clock = s.station.settled.clock ∧ t.station.torn = s.station.settled.torn := by
  cases h
  dsimp only
  (repeat' split) <;> simp

theorem execBeaconDue_frame {s t : State} (h : exec .beaconDue s = .next t) :
    t.station.control = s.station.control ∧ t.station.port = s.station.port ∧ t.station.fetch = s.station.fetch ∧
    t.station.lane = s.station.lane ∧ t.station.chunker = s.station.chunker ∧
    t.station.exchange = s.station.exchange ∧ t.station.index = s.station.index ∧ t.station.torn = s.station.torn := by
  cases h
  have := Station.takeDeadline_keeps (g := fun x : Station => (x.control, x.port, x.fetch, x.lane, x.chunker, x.exchange, x.index, x.torn))
    (s := s.station) (d := .beacon)
    (act := Station.beaconExpired)
    (fun _ _ => rfl) fun x => by simp
  simp only [Prod.mk.injEq] at this
  exact this

end Sys2Proof.Machine
end

