-- ==== Sys2Proof/Laws/Memory.lean ====
section
/-! SUPPORT. Sparse tables (the pool table and table memory): a read after a write, and the canonical form kept by every
operation. -/
namespace Sys2Proof.Machine

variable {α : Type} {k j : Nat} {v : α} {cells : List (Nat × α)} {dflt : Nat → α}

/-! ### Finding -/

theorem cellsFind_insert_self : cellsFind k (cellsInsert k v cells) = some v := by
  induction cells with
  | nil => simp [cellsInsert, cellsFind]
  | cons c rest ih =>
    obtain ⟨i, w⟩ := c
    rw [cellsInsert]
    split
    · rename_i h; rw [cellsFind, if_neg (by omega), ih]
    · split <;> simp [cellsFind]

theorem cellsFind_insert_other (h : j ≠ k) : cellsFind j (cellsInsert k v cells) = cellsFind j cells := by
  induction cells with
  | nil => simp [cellsInsert, cellsFind, Ne.symm h]
  | cons c rest ih =>
    obtain ⟨i, w⟩ := c
    rw [cellsInsert]
    split
    · rw [cellsFind, cellsFind, ih]
    · split
      · subst_vars; simp [cellsFind, Ne.symm h]
      · simp [cellsFind, Ne.symm h]

theorem cellsFind_erase_self : cellsFind k (cellsErase k cells) = none := by
  induction cells with
  | nil => rfl
  | cons c rest ih =>
    obtain ⟨i, w⟩ := c
    by_cases hi : i = k
    · subst hi; simpa [cellsErase] using ih
    · have : cellsErase k ((i, w) :: rest) = (i, w) :: cellsErase k rest := by simp [cellsErase, hi]
      rw [this, cellsFind, if_neg hi, ih]

theorem cellsFind_erase_other (h : j ≠ k) : cellsFind j (cellsErase k cells) = cellsFind j cells := by
  induction cells with
  | nil => rfl
  | cons c rest ih =>
    obtain ⟨i, w⟩ := c
    by_cases hi : i = k
    · subst hi
      have : cellsErase i ((i, w) :: rest) = cellsErase i rest := by simp [cellsErase]
      rw [this, ih, cellsFind, if_neg (Ne.symm h)]
    · have : cellsErase k ((i, w) :: rest) = (i, w) :: cellsErase k rest := by simp [cellsErase, hi]
      rw [this, cellsFind, cellsFind, ih]

/-! ### A read after a write -/

@[simp] theorem cellsRead_write_self [DecidableEq α] : cellsRead dflt k (cellsWrite dflt k v cells) = v := by
  unfold cellsWrite cellsRead
  split
  · rename_i h; simp [cellsFind_erase_self, h]
  · simp [cellsFind_insert_self]

theorem cellsRead_write_other [DecidableEq α] (h : j ≠ k) :
    cellsRead dflt j (cellsWrite dflt k v cells) = cellsRead dflt j cells := by
  unfold cellsWrite cellsRead
  split
  · rw [cellsFind_erase_other h]
  · rw [cellsFind_insert_other h]

/-! ### The canonical form -/

theorem mem_cellsInsert {c : Nat × α} (h : c ∈ cellsInsert k v cells) : c = (k, v) ∨ c ∈ cells := by
  induction cells with
  | nil => simpa [cellsInsert] using h
  | cons d rest ih =>
    obtain ⟨i, w⟩ := d
    rw [cellsInsert] at h
    split at h
    · rcases List.mem_cons.1 h with h | h
      · exact .inr (by simp [h])
      · exact (ih h).imp id (List.mem_cons_of_mem _)
    · split at h
      · exact (List.mem_cons.1 h).imp id (List.mem_cons_of_mem _)
      · exact List.mem_cons.1 h

theorem cellsInsert_rising (h : cells.Pairwise fun a b => a.1 < b.1) :
    (cellsInsert k v cells).Pairwise fun a b => a.1 < b.1 := by
  induction cells with
  | nil => simp [cellsInsert]
  | cons d rest ih =>
    obtain ⟨i, w⟩ := d
    obtain ⟨hd, hr⟩ := List.pairwise_cons.1 h
    rw [cellsInsert]
    split
    · rename_i hik
      refine List.pairwise_cons.2 ⟨fun c hc => ?_, ih hr⟩
      rcases mem_cellsInsert hc with rfl | hc
      · exact hik
      · exact hd c hc
    · split
      · rename_i hik; subst hik; exact List.pairwise_cons.2 ⟨hd, hr⟩
      · refine List.pairwise_cons.2 ⟨fun c hc => ?_, h⟩
        rcases List.mem_cons.1 hc with rfl | hc
        · simp only; omega
        · have := hd c hc; simp only at *; omega

/-- Every write keeps the canonical form. -/
theorem cellsWrite_canonical [DecidableEq α] (h : cellsCanonical dflt cells) :
    cellsCanonical dflt (cellsWrite dflt k v cells) := by
  unfold cellsWrite
  split
  · exact ⟨h.1.filter _, fun c hc => h.2 c (List.mem_filter.1 hc).1⟩
  · rename_i hv
    refine ⟨cellsInsert_rising h.1, fun c hc => ?_⟩
    rcases mem_cellsInsert hc with rfl | hc
    · exact hv
    · exact h.2 c hc

/-! ### Table memory -/

@[simp] theorem ShardTable.read_write_self (t : ShardTable) (b : Nat) (x : Bucket) : (t.write b x).read b = x :=
  cellsRead_write_self

theorem ShardTable.read_write_other (t : ShardTable) {a b : Nat} (x : Bucket) (h : a ≠ b) :
    (t.write b x).read a = t.read a := cellsRead_write_other h

theorem ShardTable.write_wf {t : ShardTable} (h : t.wf) (b : Nat) (x : Bucket) : (t.write b x).wf :=
  cellsWrite_canonical h

/-- A scrub write leaves its bucket empty. -/
@[simp] theorem ShardTable.read_scrubWrite_self (t : ShardTable) (b : Nat) : (t.scrubWrite b).read b = emptyBucket := by
  unfold ShardTable.scrubWrite
  split
  · simp [ShardTable.read, cellsRead, cellsFind_erase_self, ShardTable.dflt]
  · exact t.read_write_self b _

theorem ShardTable.read_scrubWrite_other (t : ShardTable) {a b : Nat} (h : a ≠ b) :
    (t.scrubWrite b).read a = t.read a := by
  unfold ShardTable.scrubWrite
  split
  · rename_i hb
    have : (a < b + 1) = (a < t.horizon) := by subst hb; exact propext ⟨by omega, by omega⟩
    simp only [ShardTable.read, cellsRead, cellsFind_erase_other h, ShardTable.dflt, this]
  · exact t.read_write_other _ h

theorem ShardTable.scrubWrite_wf {t : ShardTable} (h : t.wf) (b : Nat) : (t.scrubWrite b).wf := by
  unfold ShardTable.scrubWrite
  split
  · rename_i hb
    refine ⟨h.1.filter _, fun c hc => ?_⟩
    obtain ⟨hc, hne⟩ := List.mem_filter.1 hc
    have hcb : c.1 ≠ b := by simpa using hne
    have := h.2 c hc
    simp only [ShardTable.dflt] at this ⊢
    have e : (c.1 < b + 1) = (c.1 < t.horizon) := by subst hb; exact propext ⟨by omega, by omega⟩
    simpa only [e] using this
  · exact ShardTable.write_wf h b _

/-! ### Buckets -/

/-- A sealed bucket passes the check of its code. -/
theorem sealPlaces_code (places : Vector Place 8) : (sealPlaces places).code = crc16 (placesBits (sealPlaces places).places) :=
  rfl

/-- The bucket that the scrub writes is well formed. -/
theorem emptyBucket_wellFormed (b : Nat) : emptyBucket.wellFormed b = true := by
  have h1 : emptyPlaces.toList.all (Place.wellFormed b) = true := by simp [emptyPlaces, Place.wellFormed]
  have h2 : (placesKeys emptyPlaces).Nodup := by simp [placesKeys, emptyPlaces]
  unfold Bucket.wellFormed emptyBucket
  rw [sealPlaces_code]
  simp only [sealPlaces, beq_self_eq_true, Bool.true_and, Bool.and_eq_true]
  exact ⟨h1, decide_eq_true h2⟩

/-- A bucket never written since table memory was powered is damaged (section 2.4). -/
theorem unwrittenBucket_damaged (b : Nat) : unwrittenBucket.wellFormed b = false := by
  have : ∀ x : BitVec 16, (~~~x == x) = false := by
    intro x
    rw [beq_eq_false_iff_ne]
    intro h
    have := congrArg (fun y => y.getLsbD 0) h
    simp at this
  simp [Bucket.wellFormed, unwrittenBucket, this]

end Sys2Proof.Machine
end

