-- ==== Sys2Proof/Laws/Search.lean ====
section
/-! SUPPORT. The two searches over a numbered set: the lowest number that has a property, and the first in turn from a
starting number. -/
namespace Sys2Proof.Machine

theorem lowestFind_eq_none {n : Nat} {p : Fin n → Bool} : lowestFind p = none ↔ ∀ i, p i = false := by
  simp [lowestFind]

/-- The lowest number that has `p`. -/
theorem lowestFind_eq_some {n : Nat} {p : Fin n → Bool} {i : Fin n} :
    lowestFind p = some i ↔ p i = true ∧ ∀ j, j < i → p j = false := by
  unfold lowestFind
  rw [List.find?_eq_some_iff_getElem]
  constructor
  · rintro ⟨hp, k, hk, hki, hj⟩
    have hik : i.val = k := by rw [← hki]; simp
    refine ⟨hp, fun j hji => ?_⟩
    have := hj j.val (by rw [← hik]; exact hji)
    simpa using this
  · rintro ⟨hp, hj⟩
    refine ⟨hp, i.val, by simp, by simp, fun j hji => ?_⟩
    have := hj ⟨j, by omega⟩ (by simpa [Fin.lt_def] using hji)
    simpa using this

/-- The unique number that has `p` is the lowest one. -/
theorem lowestFind_unique {n : Nat} {p : Fin n → Bool} {i : Fin n} (hi : p i = true)
    (hu : ∀ j, p j = true → j = i) : lowestFind p = some i := by
  rw [lowestFind_eq_some]
  refine ⟨hi, fun j hj => ?_⟩
  by_contra h
  have := hu j (by simpa using h)
  exact absurd hj (by simp [this])

theorem ringFind_eq_none {n : Nat} [NeZero n] {start : Fin n} {p : Fin n → Bool} :
    ringFind start p = none ↔ ∀ i, p i = false := by
  unfold ringFind
  rw [List.find?_eq_none]
  constructor
  · intro h i
    have := h i (List.mem_map.2 ⟨i - start, List.mem_finRange _, by simp⟩)
    simpa using this
  · intro h x _
    simp [h x]

/-- The first in turn from `start`: it has `p`, and none between `start` and it, going upwards and wrapping, has. -/
theorem ringFind_eq_some {n : Nat} [NeZero n] {start i : Fin n} {p : Fin n → Bool} :
    ringFind start p = some i ↔ p i = true ∧ ∀ k : Fin n, k < i - start → p (start + k) = false := by
  unfold ringFind
  rw [List.find?_eq_some_iff_getElem]
  constructor
  · rintro ⟨hp, k, hk, hki, hj⟩
    have hkn : k < n := by simpa using hk
    have hik : i - start = ⟨k, hkn⟩ := by rw [← hki]; simp
    refine ⟨hp, fun j hji => ?_⟩
    have := hj j.val (by rw [hik] at hji; exact hji)
    simpa using this
  · rintro ⟨hp, hj⟩
    refine ⟨hp, (i - start).val, by simp, by simp, fun j hji => ?_⟩
    have := hj ⟨j, by omega⟩ (by simpa [Fin.lt_def] using hji)
    simpa using this

theorem ringFind_has {n : Nat} [NeZero n] {start i : Fin n} {p : Fin n → Bool} (h : ringFind start p = some i) :
    p i = true := (ringFind_eq_some.1 h).1

theorem lowestFind_has {n : Nat} {p : Fin n → Bool} {i : Fin n} (h : lowestFind p = some i) : p i = true :=
  (lowestFind_eq_some.1 h).1

end Sys2Proof.Machine
end

