-- ==== Sys2Proof/WellFormed.lean ====
section
/-! DEFINITION. Which commands are meaningful: the checks on a command's operands that the manual's formats give. -/
namespace Sys2Proof

/-- A host access asks for or writes at least one byte of the word. -/
def bytesOk (bytes : BitVec 4) : Bool := bytes != 0

/-- The sender part of a precedence value is a station number, 0 to 14 (Table 7.1). -/
def rivalOk (value : BitVec 6) : Bool := value.setWidth 4 != 15

/-- The longest frame from its class field to its check field: Table 7.2's 224 cells less the start mark and the
acknowledge cell. -/
def maxFrameCells : Nat := 222

/-- A command whose operands the formats of the manual admit. -/
def Instr.wellFormed : Instr → Bool
  | .stagingWrite _ bytes _ => bytesOk bytes
  | .reportWordRead bytes => bytesOk bytes
  | .statusWordRead bytes => bytesOk bytes
  | .commandWordWrite bytes _ => bytesOk bytes
  | .fetchReadCompletion _ _ data good => !good || (0 < data.length && data.length ≤ 512)
  | .contention _ rivals => rivals.all rivalOk
  | .attemptEnd levels _ => levels.length ≤ maxFrameCells - 6
  | .frameReceived _ cells => cells.length ≤ maxFrameCells
  | .silenceDeadline peer => peer != 15
  | .coldReset | .warmReset | .coldRelease _ _ _ _ _ | .poolSet | .configure | .start | .stats | .unknownCommand
  | .openLane | .segment | .stored | .storeFailed | .close | .suspend | .resume | .abort | .release | .leaseTick
  | .leaseDeadline _ | .leaseExpiry | .ask | .commit | .drop | .releaseItem | .peerLost | .peerRestarted
  | .bucketWriteDone | .answerHandOn | .workQueueAdmit | .scrubWriteDone | .burstIssue _ | .fetchTimeout _
  | .burstCompletion | .digestStart | .digestCompletion | .tagGrant | .requestHandOn _ | .answerDeadline _
  | .holdDeadline _ | .orphanHoldDeadline _ | .exchangeReportReady | .laneReportReady | .reportAppend | .yieldClear _
  | .frameAbandoned _ | .inboundDispatch | .peerSilent | .peerJoin | .beaconTaken | .conflictReport | .beaconDue
  | .warmRelease => true

end Sys2Proof
end

