-- ==== Sys2Proof/Tests/Slice0.lean ====
section
/-! SUPPORT. Tests: the operand checks refuse what is ill formed; worked examples of the manual, each named in its comment;
and, for every statement with hypotheses, a state that meets them, clause by clause. -/
namespace Sys2Proof.Tests
open Sys2Proof.Machine

/-! ## Operand checks -/

theorem test_access_without_bytes_refused : (Instr.stagingWrite 0 0 7).wellFormed = false := by decide
theorem test_report_read_without_bytes_refused : (Instr.reportWordRead 0).wellFormed = false := by decide
theorem test_status_read_without_bytes_refused : (Instr.statusWordRead 0).wellFormed = false := by decide
theorem test_command_write_without_bytes_refused : (Instr.commandWordWrite 0 1).wellFormed = false := by decide
theorem test_empty_completion_refused : (Instr.fetchReadCompletion 0 0 [] true).wellFormed = false := by decide
theorem test_rival_without_station_refused : (Instr.contention 2 [0x0F]).wellFormed = false := by decide
theorem test_overlong_levels_refused : (Instr.attemptEnd (List.replicate 217 true) false).wellFormed = false := by decide +kernel
theorem test_overlong_frame_refused : (Instr.frameReceived 2 (List.replicate 223 true)).wellFormed = false := by decide +kernel
theorem test_peer_15_refused : (Instr.silenceDeadline 15).wellFormed = false := by decide
theorem test_whole_access_taken : (Instr.stagingWrite 0 15 7).wellFormed = true := by decide
/-- The table gives no row any bits, so no word spells a command. -/
theorem test_no_word_spells_a_command : decodeTableWord 32 0 = none := rfl

/-! ## Worked examples of the manual -/

/-- The fingerprint of section 1.9: H'3A, H'7F, H'C2, H'A9 and twelve bytes of zeros. -/
def fpExample : Fingerprint := 0x3A7FC2A9000000000000000000000000#128

/-- Section 1.9: owners for cluster sizes 1, 4, 5 and 15. -/
theorem test_owner_by_cluster_size :
    [1, 4, 5, 15].map (fun n => ownerOf n fpExample) = [(0 : StationNo), 2, 3, 13] := by decide
/-- Section 1.9: buckets for pools 0, 3, 14 and 15. -/
theorem test_bucket_by_pool :
    [0, 3, 14, 15].map (fun p => bucketIndex ⟨p, fpExample⟩) = [261653, 163349, 327189, 294421] := by decide
/-- R64: tag H'125 is index 37 of round 1. -/
theorem test_tag_of_index_and_round :
    mkTag 1 37 = 0x125 ∧ tagIndex 0x125 = 37 ∧ tagRound 0x125 = 1 := by decide
/-- Section 7.10, contention 1: precedence 2 (station 2), 4 (station 4) and 33 (station 1): 33 loses at the first cell, 4 at
the fourth, 2 wins. -/
theorem test_contention_example :
    arbitrate 2 (List.range 6) [4, 33] = none ∧ arbitrate 4 (List.range 6) [2, 33] = some 3 ∧
      arbitrate 33 (List.range 6) [2, 4] = some 0 := by decide
/-- R163 across the wrap of the counter: a deadline one tick ahead is not reached, one 32,767 ticks back is, one 32,768 back
is not. -/
theorem test_deadline_across_the_wrap :
    reached 0 1 = false ∧ reached 5 65530 = true ∧ reached 32767 0 = true ∧ reached 32768 0 = false := by decide
/-- Table 7.2: cells from class to check of ASK, COMMIT, BEACON, VERDICT KNOWN and VERDICT WRITE: 42 and the body. -/
theorem test_frame_lengths :
    [FrameBody.ask ⟨0, 0⟩, .commit ⟨0, 0⟩ 1, .beacon true 4, .answer (.verdict (.known 1)), .answer (.verdict .write)].map
      (fun b => b.cells.length) = [132, 180, 5, 54, 6] := by decide +kernel
/-- Section 10.6: a RECIPE has 11 words, a RELEASED 4, a PEER 2. -/
theorem test_report_lengths :
    [Report.recipe 6 88 0 1 0 .dup 1, .released (.reply .counted) 1 0x31, .peer .returned 3].map
      (fun r => r.words.length) = [11, 4, 2] := by decide
/-- R17: the generator is x^16+x^12+x^5+1 and the register starts all ones, so that the code of the nine characters
"123456789" is H'29B1, the published check value of that CRC. -/
theorem test_check_code_of_nine_characters :
    crc16 ([0x31#8, 0x32, 0x33, 0x34, 0x35, 0x36, 0x37, 0x38, 0x39].flatMap bitsOf) = 0x29B1 := by decide +kernel
/-- R131: the last reported number of an abort is one less than the head slot's, across the wrap for the first slot. -/
theorem test_last_reported_before_first : ({ record := {} } : Lane).lastReported = 0xFFFFFFFF := by decide
/-- R137: a VERDICT KNOWN with locator 0 is malformed, and so is reason 5 of a NOINDEX. -/
theorem test_malformed_verdicts :
    decodeBody 0 (cellsOf 6 0 ++ cellsOf 48 0) = none ∧ decodeBody 0 (cellsOf 6 53) = none := by decide

/-! ## States for the witnesses -/

/-- Station 2 of a cluster of four, in CONFIG. -/
def idle : Station := { Station.reset with control := { Station.reset.control with straps := ⟨2, 4, 1, 0, 0⟩ } }

/-- The same station in RUNNING. -/
def live : Station :=
  { idle with
    control := { idle.control with state := .running, lock := true, scrubOwed := false }
    clock := { Clock.reset with running := true } }

/-- A command FIFO entry of a code with a count and these arguments. -/
def cmd (code count : Nat) (args : List Word) : CmdEntry := ⟨BitVec.ofNat 32 (code + 256 * count), args⟩

/-- A station with one command at the head of its command FIFO. -/
def withHead (code count : Nat) (args : List Word) (s : Station) : Station :=
  { s with port := { s.port with fifo := [cmd code count args] } }

theorem headIs {s : Station} {code count : Nat} {args : List Word} (h : s.port.cmdReady = none)
    (hc : commandCount code = some count) (h1 : code < 256) (h2 : count < 32) :
    (withHead code count args s).HeadIs code (cmd code count args) [] := by
  refine ⟨rfl, h, ?_, ?_⟩
  · simp only [cmd, BitVec.toNat_ofNat]; omega
  · rw [hc]; simp only [cmd, BitVec.toNat_ofNat, Option.some.injEq]; omega

theorem laneAt_withLane (s : Station) (l : LaneNo) (x : Lane) : (s.withLane l x).laneAt l = x := by
  simp [Station.withLane, Station.laneAt]

/-- The hypotheses shared by the lane commands: no deadline waits, the command at the head in RUNNING, naming lane 0 with
record `x`. -/
def LaneHyp (code count : Nat) (args : List Word) (x : Lane) : Prop :=
  let s := withHead code count args (live.withLane 0 x)
  s.DeadlinesActed ∧ s.HeadIs code (cmd code count args) [] ∧ s.control.state = .running ∧ (cmd code count args).names 0 ∧ s.laneAt 0 = x

theorem laneHyp {code count : Nat} {args : List Word} (x : Lane) (hc : commandCount code = some count) (h1 : code < 256)
    (h2 : count < 32) (h0 : (args.getD 0 0).toNat % 32 = 0) : LaneHyp code count args x :=
  ⟨rfl, headIs rfl hc h1 h2, rfl, h0, laneAt_withLane live 0 x⟩

/-- A descriptor of a segment with `n` of its 2,048 bytes consumed. -/
def desc (seq : Word) (consumed : Nat) : Descriptor := ⟨seq, 0x1000, 2048, BitVec.ofNat 48 2048, consumed⟩

/-- A slot of 100 bytes at offset 0 in a state. -/
def slotIn (seq : Word) (state : SlotState) : Slot := ⟨seq, 0, 100, some 7, some 9, state⟩

/-- An OPEN lane with this window. -/
def laneOf (window : List Slot) : Lane := { state := .openLane, window := window }

/-! ## Witnesses: the machine and its invariants -/

theorem test_witness_LeaseClockAdvances :
    idle.DeadlinesActed ∧ live.DeadlinesActed ∧
    idle.clock.running = false ∧ (live.clock.running = true ∧ live.clock.divider + 1 < 2 ^ (10 + 2 * 0)) ∧
      (let s := { live with clock := { live.clock with divider := 1022 } }; s.clock.running = true ∧ s.clock.divider + 1 < 2 ^ (10 + 2 * s.control.straps.tickTap.toNat)) ∧
      (let s := { live with clock := { live.clock with divider := 1023 } }; s.clock.running = true ∧ 2 ^ (10 + 2 * s.control.straps.tickTap.toNat) ≤ s.clock.divider + 1) ∧
      live.clock.reached = [] := by decide

/-- A full command FIFO, and a step that answers a next state. -/
theorem test_witness_QueuesAndTablesStayInBounds :
    let s := { live with port := { live.port with fifo := List.replicate 32 (cmd 4 0 []) } }
    s.WithinBounds ∧ s.TablesCanonical ∧ ∃ t, step ⟨s, [.commandWordWrite 15 4]⟩ = .next t := by
  refine ⟨⟨by decide, by decide, by decide, by decide, by decide, by decide, by decide, fun l => ?_⟩, ⟨?_, ?_⟩, _, rfl⟩
  · simp [Station.laneAt, live, idle, Station.reset, LaneUnit.reset]
  · decide
  · exact ⟨List.Pairwise.nil, fun c h => nomatch h⟩

/-- One claim with six waiters, for the key of pool 0 and fingerprint 0. -/
def fullClaim : Claim :=
  ⟨⟨0, 0⟩, 0, ⟨1, 0⟩, 64, none, [⟨1, 1⟩, ⟨1, 2⟩, ⟨1, 3⟩, ⟨1, 4⟩, ⟨1, 5⟩, ⟨1, 6⟩]⟩

/-- A station with one claim, at position 0. -/
def withClaim0 (c : Claim) (s : Station) : Station :=
  { s with index := { s.index with claims := (Vector.replicate 128 none).set 0 (some c) } }

theorem claim0 (c : Claim) (s : Station) : (withClaim0 c s).index.claims[(0 : ClaimPos)] = some c := by
  simp [withClaim0]

theorem claim_only0 {c d : Claim} {s : Station} {p : ClaimPos} (h : (withClaim0 c s).index.claims[p] = some d) :
    p = 0 ∧ d = c := by
  by_cases hp : p = 0
  · subst hp; rw [claim0] at h; exact ⟨rfl, (Option.some.inj h).symm⟩
  · have : (0 : Nat) ≠ p.val := fun e => hp (Fin.ext e.symm)
    simp [withClaim0, this] at h

theorem claimsOn_le (c : Claim) (s : Station) (b : Nat) : (withClaim0 c s).claimsOn b ≤ 1 := by
  have : (withClaim0 c s).index.claims.toList = some c :: List.replicate 127 none := rfl
  unfold Station.claimsOn
  rw [this, List.countP_cons, List.countP_replicate]
  simp; split <;> simp

theorem test_witness_ClaimsAndEntriesStayApart :
    (withClaim0 fullClaim live).ClaimsSound ∧ ∃ t, step ⟨withClaim0 fullClaim live, [.leaseTick]⟩ = .next t := by
  have hp : ∀ b, (withClaim0 fullClaim live).placesOf b = emptyPlaces := by
    intro b
    have : ((withClaim0 fullClaim live).index.table.read b).wellFormed b = false := unwrittenBucket_damaged b
    simp only [Station.placesOf, this]
    rfl
  refine ⟨⟨fun p c h => ?_, fun p c h => ?_, fun p q c d h h' _ => ?_, fun p c h => ?_, fun b => ?_⟩, _, rfl⟩
  · rw [(claim_only0 h).2]; decide
  · rw [(claim_only0 h).2]; decide
  · rw [(claim_only0 h).1, (claim_only0 h').1]
  · rw [hp, (claim_only0 h).2]; decide
  · rw [hp]
    have : entryCount emptyPlaces = 0 := by decide
    have := claimsOn_le fullClaim live b
    omega

theorem live_start : live.StartSound :=
  ⟨fun h => (nomatch h), fun _ => ⟨rfl, by decide, rfl, rfl⟩, fun h => (nomatch h), by decide, by decide⟩

theorem test_witness_StartUpStaysInAgreement : live.StartSound ∧ ∃ t, step ⟨live, [.warmReset]⟩ = .next t :=
  ⟨live_start, _, rfl⟩

/-- Peers 0 SERVING and marked silent, 1 ABSENT and heard. -/
def twoPeers : Station :=
  { live with roster := { live.roster with
      peers := (live.roster.peers.set 0 { state := .serving, silence := true }).set 1 { heard := true } } }

theorem test_witness_PeerTableStaysSound :
    twoPeers.StartSound ∧ twoPeers.RosterSound ∧ ∃ t, step ⟨twoPeers, [.peerSilent]⟩ = .next t := by
  refine ⟨⟨live_start.1, live_start.2, live_start.3, live_start.4, live_start.5⟩, ⟨by decide, by decide, by decide, by decide, fun h => absurd rfl h⟩, _, rfl⟩

/-- A beacon behind an ASK that is on the line with three failed attempts. -/
def twoFrames : Bus :=
  { Bus.reset with
    tx := [⟨⟨2, 1, 0x100, .ask ⟨0, 0⟩⟩, .exchange, 3, .onLine⟩, ⟨⟨2, 15, 0, .beacon true 4⟩, .roster, 0, .waiting⟩] }

theorem test_witness_TransmitQueueStaysInOrder :
    twoFrames.TransmitSound ∧ ∃ t, step ⟨{ live with bus := twoFrames }, [.attemptEnd [] false]⟩ = .next t := by
  refine ⟨⟨by decide, ?_, by decide, by decide⟩, _, rfl⟩
  intro f hf
  simp [twoFrames] at hf
  rcases hf with rfl | rfl <;> simp [TxProducer.gives, FrameBody.cls]

/-- An ASKING entry toward station 1, its ASK PENDING. -/
def askEntry : Entry :=
  { round := 1, state := .asking, owner := 1, binding := some ⟨0, 3⟩, request := some (.ask, .pending), attempts := 1 }

/-- A station with one live entry, at index 0. -/
def withEntry0 (e : Entry) (s : Station) : Station :=
  { s with exchange := { s.exchange with entries := (Vector.replicate 256 {}).set 0 e } }

theorem entry0 (e : Entry) (s : Station) : (withEntry0 e s).entry 0 = e := by simp [withEntry0, Station.entry]

theorem entry_other {e : Entry} {s : Station} {i : EntryIndex} (h : i ≠ 0) : (withEntry0 e s).entry i = {} := by
  have : (0 : Nat) ≠ i.val := fun x => h (Fin.ext x.symm)
  simp [withEntry0, Station.entry, this]

theorem freeEntry_sound : ({} : Entry).Sound :=
  ⟨fun _ => rfl, fun h => absurd rfl h, fun h => (nomatch h), fun _ _ h => (nomatch h), fun _ _ h => (nomatch h),
    fun h => absurd h (by decide), fun h => (nomatch h)⟩

theorem entries_sound {e : Entry} (h : e.Sound) (s : Station) : (withEntry0 e s).EntriesSound := by
  intro i
  by_cases hi : i = 0
  · subst hi; rw [entry0]; exact h
  · rw [entry_other hi]; exact freeEntry_sound

theorem askEntry_sound : askEntry.Sound :=
  ⟨fun h => (nomatch h), fun _ => ⟨fun _ h => (nomatch h), fun _ => rfl⟩, fun _ => ⟨rfl, .inl rfl⟩,
    fun _ _ h => by cases h; rfl, fun _ _ h => (nomatch h), fun _ => by decide, fun h => (nomatch h)⟩

theorem test_witness_OutstandingEntriesStaySound :
    (withEntry0 askEntry live).EntriesSound ∧ ∃ t, step ⟨withEntry0 askEntry live, [.requestHandOn .bus]⟩ = .next t :=
  ⟨entries_sound askEntry_sound live, _, rfl⟩

/-- A lane with one segment of 2,048 bytes, 100 of them in its one slot. -/
def busyLane : Lane :=
  { state := .openLane
    record := { nextRecipe := 1, nextSegment := 1, offset := 100 }
    segments := [desc 0 100]
    window := [slotIn 0 .filling] }

theorem one_lane_sound {x : Lane} (h : x.Sound) (s : Station) (hs : ∀ l, (s.laneAt l).Sound) (l : LaneNo) :
    (s.withLane l x).LanesSound := by
  intro k
  by_cases hk : k = l
  · subst hk; rw [laneAt_withLane]; exact h
  · have : l.val ≠ k.val := fun e => hk (Fin.ext e.symm)
    have e : (s.withLane l x).laneAt k = s.laneAt k := by simp [Station.withLane, Station.laneAt, this]
    rw [e]; exact hs k

theorem freeLane_sound : ({} : Lane).Sound := by
  refine ⟨⟨?_, ?_, ?_, ?_⟩, ⟨?_, ?_, ?_⟩, fun _ => rfl, ?_, fun h => (nomatch h)⟩ <;> intros <;> simp_all

theorem busyLane_sound : busyLane.Sound := by
  refine ⟨⟨?_, ?_, ?_, ?_⟩, ⟨?_, ?_, ?_⟩, fun h => absurd rfl h, fun _ h => (nomatch h), fun h => (nomatch h)⟩
  · intro i x h; rcases i with _ | i <;> simp [busyLane] at h; subst h; decide
  · intro i x y h h'; rcases i with _ | i <;> simp [busyLane] at h h'
  · intro x h; simp [busyLane] at h; subst h; decide
  · intro i x h _; rcases i with _ | i <;> simp [busyLane] at h; rfl
  · intro i d h; rcases i with _ | i <;> simp [busyLane] at h; subst h; decide
  · intro i d e h h'; rcases i with _ | i <;> simp [busyLane] at h h'
  · intro d h; simp [busyLane] at h; subst h; decide

theorem live_lane (l : LaneNo) : live.laneAt l = {} := by simp [live, idle, Station.reset, LaneUnit.reset, Station.laneAt]

theorem test_witness_LanesStayInStreamOrder :
    (live.withLane 0 busyLane).LanesSound ∧ ∃ t, step ⟨live.withLane 0 busyLane, [.burstIssue true]⟩ = .next t :=
  ⟨one_lane_sound busyLane_sound live (fun l => by rw [live_lane]; exact freeLane_sound) 0, _, rfl⟩

/-- A lane whose window holds a slot in each of the states that digest FIFO, tag wait queue and entries answer for. -/
def servedLane : Lane :=
  { state := .openLane
    record := { nextRecipe := 6, offset := 300 }
    window := [⟨3, 0, 100, some 7, none, .asking⟩, ⟨4, 100, 100, some 7, none, .lookup⟩, ⟨5, 200, 100, none, none, .digesting⟩] }

/-- The station that serves it: `askEntry` is bound to slot 3, slot 4 waits for a tag, slot 5 for the digest engine. -/
def serving : Station :=
  { (withEntry0 askEntry live).withLane 0 servedLane with
    chunker := { live.chunker with digests := [⟨0, 5, 100, []⟩] }
    exchange := { (withEntry0 askEntry live).exchange with waitQueue := [.lookup 0 4 ⟨0, 7⟩ 1] } }

theorem serving_lane (l : LaneNo) : serving.laneAt l = if l = 0 then servedLane else {} := by
  by_cases h : l = 0
  · subst h; rfl
  · have : (0 : Nat) ≠ l.val := fun e => h (Fin.ext e.symm)
    rw [if_neg h, ← live_lane l]
    show (live.lane.lanes.set 0 servedLane)[l] = live.lane.lanes[l]
    simp [this]

theorem serving_entry (i : EntryIndex) : serving.entry i = (withEntry0 askEntry live).entry i := rfl

theorem servedLane_sound : servedLane.Sound := by
  refine ⟨⟨?_, ?_, ?_, ?_⟩, ⟨?_, ?_, ?_⟩, fun h => absurd rfl h, fun _ h => (nomatch h), fun h => (nomatch h)⟩
  · intro i x h; rcases i with _ | _ | _ | i <;> simp [servedLane] at h <;> subst h <;> decide
  · intro i x y h h'; rcases i with _ | _ | _ | i <;> simp [servedLane] at h h' <;> subst h <;> subst h' <;> decide
  · intro x h; simp [servedLane] at h; subst h; decide
  · intro i x h hx; rcases i with _ | _ | _ | i <;> simp [servedLane] at h <;> subst h <;> cases hx
  · intro i d h; simp [servedLane] at h
  · intro i d e h; simp [servedLane] at h
  · intro d h; simp [servedLane] at h

theorem serving_binding {i : EntryIndex} {b : Binding} (h : (serving.entry i).binding = some b) : i = 0 ∧ b = ⟨0, 3⟩ := by
  by_cases hi : i = 0
  · subst hi
    rw [serving_entry, entry0] at h
    exact ⟨rfl, (Option.some.inj h).symm⟩
  · rw [serving_entry, entry_other hi] at h; cases h

theorem serving_matched : serving.SlotsMatched := by
  refine ⟨fun l => ?_, fun l h => ?_, fun b h => (nomatch h), ⟨by decide, ?_⟩, ⟨by decide, ?_⟩, fun i b h => ?_,
    fun i j b h h' => ?_, fun b h => ?_, fun l r h => ?_⟩
  · rw [serving_lane]; split <;> decide
  · rw [serving_lane] at h ⊢; split <;> simp_all [servedLane]
  · intro k hk
    have : k = (0, 5) := by simpa [Chunker.inDigest, serving, live, idle, Station.reset, Chunker.reset] using hk
    subst this
    exact ⟨⟨5, 200, 100, none, none, .digesting⟩, by rw [serving_lane]; decide, rfl, rfl⟩
  · intro k hk
    have : k = (0, 4) := by simpa [Exchange.inLookup, serving] using hk
    subst this
    exact ⟨⟨4, 100, 100, some 7, none, .lookup⟩, by rw [serving_lane]; decide, rfl, rfl⟩
  · obtain ⟨rfl, rfl⟩ := serving_binding h
    refine .inl ⟨⟨3, 0, 100, some 7, none, .asking⟩, by rw [serving_lane]; decide, rfl, ?_⟩
    rw [serving_entry, entry0]; rfl
  · rw [(serving_binding h).1, (serving_binding h').1]
  · obtain ⟨_, _, _, _, _, h⟩ := h; cases h
  · rw [serving_lane] at h; split at h <;> cases h

theorem serving_lanes : serving.LanesSound := by
  intro l
  rw [serving_lane]
  split
  · exact servedLane_sound
  · exact freeLane_sound

/-- An ASKING slot with its entry, a LOOKUP slot with its lookup, a DIGESTING slot with its chunk; the next tag is granted. -/
theorem test_witness_SlotsStayMatchedAndBounded :
    serving.LanesSound ∧ serving.SlotsMatched ∧ (∃ t, step ⟨serving, [.tagGrant]⟩ = .next t) ∧ serving.WithinBounds := by
  refine ⟨serving_lanes, serving_matched, ⟨_, rfl⟩,
    ⟨by decide, by decide, by decide, by decide, by decide, by decide, by decide, fun l => ?_⟩⟩
  rw [serving_lane]; split <;> decide

/-- The station in SCRUB with the write of bucket 1 in flight. -/
def scrubbing : Station :=
  { live with
    control := { live.control with state := .scrub }
    index := { live.index with scrub := some 1, table := ⟨[], 1⟩ } }

theorem scrubbing_start : scrubbing.StartSound :=
  ⟨fun h => (nomatch h), fun _ => ⟨rfl, by decide, rfl, rfl⟩, fun h => (nomatch h), by decide, by decide⟩

theorem test_witness_ScrubLeavesEmptyBucketsBehind :
    scrubbing.StartSound ∧ scrubbing.ScrubSound ∧ ∃ t, step ⟨scrubbing, [.scrubWriteDone]⟩ = .next t := by
  refine ⟨scrubbing_start, ⟨fun _ => ⟨rfl, rfl⟩, fun b h => ?_, fun b h a ha => ?_⟩, _, rfl⟩
  · cases h; decide
  · cases h
    show cellsRead _ a [] = emptyBucket
    simp [cellsRead, cellsFind, ShardTable.dflt, scrubbing, ha]

/-! ## Witnesses: what only some commands change -/

/-- POOL_SET of branch 17 to pool 3 in CONFIG. -/
def poolCommand : Station := withHead 1 1 [0x00030011] idle

theorem test_witness_PoolTableLockAndStrapsChangeByRule :
    (∃ t, step ⟨poolCommand, [.poolSet]⟩ = .next t ∧ t.station.control.pools ≠ poolCommand.control.pools) ∧
    (∃ t, step ⟨withHead 3 0 [] idle, [.start]⟩ = .next t ∧ t.station.control.lock ≠ idle.control.lock) ∧
    (∃ t, step ⟨{ idle with control := { idle.control with coldPin := true } }, [.coldRelease 1 4 1 0 0]⟩ = .next t ∧
      t.station.control.straps ≠ idle.control.straps) :=
  ⟨⟨_, rfl, by decide⟩, ⟨_, rfl, by decide⟩, ⟨_, rfl, by decide⟩⟩

/-- Whatever the levels of the pins are, one of two stations changes its straps at COLD_RESET. -/
theorem test_witness_PoolTableLockAndStrapsChangeByRule_cold :
    ∃ x : Straps, let s := { idle with control := { idle.control with straps := x } }
      ∃ t, step ⟨s, [.coldReset]⟩ = .next t ∧ t.station.control.straps ≠ s.control.straps := by
  by_cases h : strapsOf (Config.strapLevels 0) = ⟨0, 4, 0, 0, 0⟩
  · exact ⟨⟨1, 4, 0, 0, 0⟩, _, rfl, fun e => absurd (h.symm.trans e) (by decide)⟩
  · exact ⟨⟨0, 4, 0, 0, 0⟩, _, rfl, h⟩

theorem test_witness_ScrubOwedMarkerByReset :
    (∃ t, step ⟨live, [.coldReset]⟩ = .next t) ∧ (∃ t, step ⟨live, [.warmReset]⟩ = .next t) ∧
    (∃ t, step ⟨withHead 3 0 [] idle, [.start]⟩ = .next t ∧ t.station.control.state = .scrub ∧
      t.station.control.scrubOwed ≠ idle.control.scrubOwed) ∧
    (∃ t, step ⟨withHead 3 0 [] { idle with control := { idle.control with scrubOwed := false } }, [.start]⟩ = .next t ∧
      t.station.control.state = .running) ∧
    (scrubbing.StartSound ∧ scrubbing.control.state = .scrub ∧ scrubbing.control.coldPin = false ∧
      ∃ t, step ⟨scrubbing, [.warmReset]⟩ = .next t) :=
  ⟨⟨_, rfl⟩, ⟨_, rfl⟩, ⟨_, rfl, rfl, by decide⟩, ⟨_, rfl, rfl⟩, scrubbing_start, rfl, rfl, _, rfl⟩

theorem test_witness_StationStateChangesByTable :
    (∃ t, step ⟨live, [.coldReset]⟩ = .next t ∧ t.station.control.state ≠ live.control.state) ∧
    (∃ t, step ⟨withHead 3 0 [] idle, [.start]⟩ = .next t ∧ t.station.control.state ≠ idle.control.state) ∧
    (let s := { scrubbing with index := { scrubbing.index with scrub := some 524287 } }; ∃ t, step ⟨s, [.scrubWriteDone]⟩ = .next t ∧ t.station.control.state ≠ s.control.state) :=
  ⟨⟨_, rfl, by decide⟩, ⟨_, rfl, by decide⟩, ⟨_, rfl, by decide⟩⟩

theorem empty_ne_unwritten : emptyBucket ≠ unwrittenBucket := by
  intro h
  have := congrArg (fun k => k.wellFormed 0) h
  rw [emptyBucket_wellFormed, unwrittenBucket_damaged] at this
  cases this

/-- RUNNING with the write-back of an empty bucket 0 in flight. -/
def writing : Station := { live with index := { live.index with write := some (0, emptyBucket) } }

/-- The write-back of bucket 0 in flight, a COMMIT in the index work queue and one in the inbound queue. -/
def committing : Station :=
  { writing with
    index := { writing.index with queue := [.commit ⟨1, 9⟩ ⟨0, 0⟩ 5] }
    bus := { writing.bus with inbound := [⟨1, 2, 0x125, .commit ⟨0, 0⟩ 7⟩] } }

theorem test_witness_WriteBacksStayWellFormed :
    committing.ClaimsSound ∧ committing.EntriesSound ∧ committing.WritesSound ∧
      (∃ t, step ⟨committing, [.bucketWriteDone]⟩ = .next t) ∧ committing.index.write = some (0, emptyBucket) := by
  have noClaim : ∀ (p : ClaimPos) (c : Claim), committing.index.claims[p] ≠ some c := by
    intro p c
    show live.index.claims[p] ≠ some c
    simp [live, idle, Station.reset, IndexUnit.reset]
  have hp : ∀ b, committing.placesOf b = emptyPlaces := by
    intro b
    have : (committing.index.table.read b).wellFormed b = false := unwrittenBucket_damaged b
    simp only [Station.placesOf, this]
    show (if (0 : Nat) = b then _ else _) = _
    split <;> rfl
  have noEntry : ∀ i, committing.entry i = {} := by
    intro i
    show live.entry i = {}
    simp [live, idle, Station.reset, Exchange.reset, Station.entry]
  refine ⟨⟨fun p c h => absurd h (noClaim p c), fun p c h => absurd h (noClaim p c), fun p _ c _ h => absurd h (noClaim p c),
      fun p c h => absurd h (noClaim p c), fun b => ?_⟩, fun i => by rw [noEntry]; exact freeEntry_sound,
    ⟨fun b k h => ?_, ?_, fun _ h => (nomatch h), ?_, fun i h => ?_⟩, ⟨_, rfl⟩, rfl⟩
  · have h1 : entryCount emptyPlaces = 0 := by decide
    have h2 : committing.claimsOn b = 0 := by
      have : committing.index.claims.toList = List.replicate 128 none := rfl
      unfold Station.claimsOn
      rw [this, List.countP_replicate]; rfl
    rw [hp, h1, h2]; decide
  · cases h; exact emptyBucket_wellFormed 0
  · intro item h
    have : item = .commit ⟨1, 9⟩ ⟨0, 0⟩ 5 := by simpa [committing] using h
    subst this; simp [WorkItem.commitsNonzero]
  · intro f h k l hb
    have : f = ⟨1, 2, 0x125, .commit ⟨0, 0⟩ 7⟩ := by simpa [committing] using h
    subst this; cases hb; decide
  · rw [noEntry] at h; cases h

theorem test_witness_TableMemoryChangesByRule :
    ∃ t, step ⟨writing, [.bucketWriteDone]⟩ = .next t ∧ t.station.index.table.read 0 ≠ writing.index.table.read 0 := by
  refine ⟨_, rfl, ?_⟩
  have h : (ShardTable.write ⟨[], 0⟩ 0 emptyBucket).read 0 = emptyBucket := ShardTable.read_write_self _ _ _
  show (ShardTable.write ⟨[], 0⟩ 0 emptyBucket).read 0 ≠ unwrittenBucket
  rw [h]; exact empty_ne_unwritten

/-- COLD asserted. -/
def inCold : Station := { idle with control := { idle.control with coldPin := true } }

theorem test_witness_ResetsAndReleases :
    live.DeadlinesActed ∧ inCold.DeadlinesActed ∧
    live.control.coldPin = false ∧ { live.control with coldPin := true }.coldPin = true := ⟨rfl, rfl, rfl, rfl⟩

/-! ## Witnesses: the stream port -/

/-- A command FIFO with `n` entries. -/
def withFifo (n : Nat) : Station := { live with port := { live.port with fifo := List.replicate n (cmd 4 0 []) } }

theorem test_witness_StagingAreaHoldsWhatIsWritten :
    live.DeadlinesActed ∧ inCold.DeadlinesActed ∧ (withFifo 31).DeadlinesActed ∧
    live.inReset = false ∧ inCold.inReset = true ∧ live.control.coldPin = false ∧
    (live.inReset = false ∧ (withFifo 31).port.fifo.length < 32 ∧ ∃ t, exec (.commandWordWrite 15 0x406) ⟨withFifo 31, []⟩ = .next t) ∧
    (∃ t, exec (.commandWordWrite 15 4) ⟨live, []⟩ = .next t) ∧ (∃ t, exec .coldReset ⟨live, []⟩ = .next t) ∧
    (∃ t, exec .warmReset ⟨live, []⟩ = .next t) ∧
    (∃ t, step ⟨live, [.stagingWrite 15 0b0001 0x1FF]⟩ = .next t ∧ t.station.port.staging ≠ live.port.staging) :=
  ⟨rfl, rfl, rfl, rfl, rfl, rfl, ⟨rfl, by decide, _, rfl⟩, ⟨_, rfl⟩, ⟨_, rfl⟩, ⟨_, rfl⟩, ⟨_, rfl, by decide⟩⟩

/-- COMMAND_WORD_WRITE: a header for all four bytes and one for the lowest alone; 31 and 32 entries in the FIFO; a pin asserted. -/
theorem test_witness_WindowAccessesTakeEffect :
    (withFifo 31).DeadlinesActed ∧ (withFifo 32).DeadlinesActed ∧ inCold.DeadlinesActed ∧
    (∀ k, k < 4 → (0x1F0B#32).extractLsb' (8 * k) 8 = if (15#4).getLsbD k then (0x1F0B#32).extractLsb' (8 * k) 8 else 0) ∧
    (∀ k, k < 4 → (0x0B#32).extractLsb' (8 * k) 8 = if (1#4).getLsbD k then (0x1F0B#32).extractLsb' (8 * k) 8 else 0) ∧
    ((withFifo 31).inReset = false ∧ (withFifo 31).port.fifo.length < 32) ∧
    ((withFifo 32).inReset = false ∧ 32 ≤ (withFifo 32).port.fifo.length) ∧ inCold.inReset = true := by decide

/-- REPORT_WORD_READ and STATUS_WORD_READ: words held and none; a pin asserted; a full command FIFO within bounds. -/
theorem test_witness_WindowAccessesTakeEffect_reads :
    live.DeadlinesActed ∧ (withFifo 32).DeadlinesActed ∧ inCold.DeadlinesActed ∧
    (let s := { live with port := { live.port with reports := [0x00010601, 7] } };
      s.inReset = false ∧ s.port.reports = 0x00010601 :: [7]) ∧
    (live.inReset = false ∧ live.port.reports = []) ∧ inCold.inReset = true ∧
    ((withFifo 32).inReset = false ∧ (withFifo 32).WithinBounds) := by
  refine ⟨rfl, rfl, rfl, ⟨rfl, rfl⟩, ⟨rfl, rfl⟩, rfl, rfl, by decide, by decide, by decide, by decide, by decide, by decide, by decide,
    fun l => ?_⟩
  have : (withFifo 32).laneAt l = {} := live_lane l
  rw [this]; decide

theorem test_witness_StationStateRefusesCommands :
    (withHead 14 0 [] idle).DeadlinesActed ∧ (withHead 5 2 [31, 0] idle).DeadlinesActed ∧ (withHead 12 1 [0] scrubbing).DeadlinesActed ∧ (withHead 2 1 [1] live).DeadlinesActed ∧
    (let s := withHead 14 0 [] idle; s.port.fifo = cmd 14 0 [] :: [] ∧ s.port.cmdReady = none ∧
      commandCount ((cmd 14 0 []).header.toNat % 256) ≠ some ((cmd 14 0 []).header.toNat / 256 % 32)) ∧
    (let s := withHead 5 3 [] idle; s.port.fifo = cmd 5 3 [] :: [] ∧ s.port.cmdReady = none ∧
      commandCount ((cmd 5 3 []).header.toNat % 256) ≠ some ((cmd 5 3 []).header.toNat / 256 % 32)) ∧
    ((withHead 5 2 [31, 0] idle).HeadIs 5 (cmd 5 2 [31, 0]) [] ∧ (cmd 5 2 [31, 0]).names 31) ∧
    ((withHead 12 1 [0] scrubbing).HeadIs 12 (cmd 12 1 [0]) [] ∧ scrubbing.control.state ≠ .running) ∧
    ((withHead 13 7 [] idle).HeadIs 13 (cmd 13 7 []) [] ∧ idle.control.state ≠ .running) ∧
    ((withHead 2 1 [1] live).HeadIs 2 (cmd 2 1 [1]) [] ∧ (withHead 3 0 [] scrubbing).HeadIs 3 (cmd 3 0 []) [] ∧
      live.control.state ≠ .config ∧ scrubbing.control.state ≠ .config) :=
  ⟨rfl, rfl, rfl, rfl, ⟨rfl, rfl, by decide⟩, ⟨rfl, rfl, by decide⟩, ⟨headIs rfl rfl (by decide) (by decide), rfl⟩,
    ⟨headIs rfl rfl (by decide) (by decide), by decide⟩, ⟨headIs rfl rfl (by decide) (by decide), by decide⟩,
    headIs rfl rfl (by decide) (by decide), headIs rfl rfl (by decide) (by decide), by decide, by decide⟩

theorem test_witness_PoolSetByStateAndLock :
    poolCommand.DeadlinesActed ∧ (withHead 1 1 [0x00030011] live).DeadlinesActed ∧
    (poolCommand.HeadIs 1 (cmd 1 1 [0x00030011]) [] ∧ poolCommand.control.state = .config ∧ poolCommand.control.lock = false) ∧
    (let s := { poolCommand with control := { poolCommand.control with lock := true } };
      s.HeadIs 1 (cmd 1 1 [0x00030011]) [] ∧ s.control.state = .config ∧ s.control.lock = true) ∧
    ((withHead 1 1 [0x00030011] live).HeadIs 1 (cmd 1 1 [0x00030011]) [] ∧ live.control.state ≠ .config) :=
  ⟨rfl, rfl, ⟨headIs rfl rfl (by decide) (by decide), rfl, rfl⟩, ⟨⟨rfl, rfl, by decide, by decide⟩, rfl, rfl⟩,
    headIs rfl rfl (by decide) (by decide), by decide⟩

/-- Thresholds 1 and 1,024 are taken, 0 and 1,025 are not. -/
theorem test_witness_ConfigureAndStatsDecided :
    (withHead 2 1 [1] idle).DeadlinesActed ∧ (withHead 4 0 [] live).DeadlinesActed ∧
    (∀ n ∈ [1, 1024, 0, 1025], (withHead 2 1 [BitVec.ofNat 32 n] idle).HeadIs 2 (cmd 2 1 [BitVec.ofNat 32 n]) [] ∧
      ((cmd 2 1 [BitVec.ofNat 32 n]).arg 0).toNat % 2048 = n) ∧ idle.control.state = .config ∧
    ((withHead 4 0 [] live).HeadIs 4 (cmd 4 0 []) [] ∧ live.control.ready = none) := by
  refine ⟨rfl, rfl, fun n hn => ⟨headIs rfl rfl (by decide) (by decide), ?_⟩, rfl, headIs rfl rfl (by decide) (by decide), rfl⟩
  simp at hn
  rcases hn with rfl | rfl | rfl | rfl <;> rfl

/-- Number 4 of cluster size 4 and cluster size 0 are refused; number 2 of 4 is taken, with a scrub owed and without. -/
theorem test_witness_StartDecidedByStraps :
    (withHead 3 0 [] idle).DeadlinesActed ∧
    (withHead 3 0 [] idle).HeadIs 3 (cmd 3 0 []) [] ∧ idle.control.state = .config ∧ idle.control.ready = none ∧
    ((0 : BitVec 4) = 0 ∧ (4 : BitVec 4).toNat ≤ (4 : BitVec 4).toNat) ∧
    (idle.control.straps.clusterSize ≠ 0 ∧
      idle.control.straps.number.toNat < idle.control.straps.clusterSize.toNat ∧ idle.control.scrubOwed = true) ∧
    ({ idle.control with scrubOwed := false }.scrubOwed = false) :=
  ⟨rfl, headIs rfl rfl (by decide) (by decide), by decide⟩

/-- Arguments of a host RELEASE: pool, cookie 7, fingerprint 1, locator. -/
def releaseArgs (pool locator : Word) : List Word := [0x00070000 ||| pool, 0, 0, 0, 1, locator, 0]

/-- A station with `n` host releases in the tag wait queue. -/
def waiting (n : Nat) : Station :=
  { live with exchange := { live.exchange with waitQueue := List.replicate n (.hostRelease ⟨0, 1⟩ 1 0 0) } }

theorem test_witness_HostReleaseDecided :
    (withHead 13 7 (releaseArgs 0 0) live).DeadlinesActed ∧ (withHead 13 7 (releaseArgs 14 5) (waiting 64)).DeadlinesActed ∧
    (withHead 13 7 (releaseArgs 0 0) live).HeadIs 13 (cmd 13 7 (releaseArgs 0 0)) [] ∧ live.control.state = .running ∧
    (let e := cmd 13 7 (releaseArgs 0 0); (e.arg 6).extractLsb' 0 16 ++ e.arg 5 = 0#48) ∧
    ((withHead 13 7 (releaseArgs 15 5) live).HeadIs 13 (cmd 13 7 (releaseArgs 15 5)) [] ∧
      (let e := cmd 13 7 (releaseArgs 15 5);
        (e.arg 6).extractLsb' 0 16 ++ e.arg 5 ≠ 0#48 ∧ (e.arg 0).extractLsb' 0 4 = 15#4 ∧ live.exchange.ready = none)) ∧
    ((withHead 13 7 (releaseArgs 14 5) (waiting 64)).HeadIs 13 (cmd 13 7 (releaseArgs 14 5)) [] ∧
      (let e := cmd 13 7 (releaseArgs 14 5);
        (e.arg 6).extractLsb' 0 16 ++ e.arg 5 ≠ 0#48 ∧ (e.arg 0).extractLsb' 0 4 ≠ 15#4 ∧
          64 ≤ (waiting 64).exchange.hostReleases ∧ (waiting 63).exchange.hostReleases < 64)) :=
  ⟨rfl, rfl, headIs rfl rfl (by decide) (by decide), rfl, by decide, ⟨headIs rfl rfl (by decide) (by decide), by decide⟩,
    headIs rfl rfl (by decide) (by decide), by decide⟩

/-- A report held by each producer. -/
def holding : Station :=
  { live with
    control := { live.control with ready := some (.started false 2 4) }
    exchange := { live.exchange with ready := some (.reclaim 0 ⟨0, 0⟩ 5) }
    index := { live.index with ready := some (.bucketLost 0) }
    lane := { live.lane with ready := some (.segmentDone 0 0) }
    roster := { live.roster with ready := some (.peer .joined 1) } }

theorem test_witness_HeldReportsKeepTheirUnitsWaiting :
    (withHead 4 0 [] holding).DeadlinesActed ∧ (withHead 13 7 (releaseArgs 15 5) holding).DeadlinesActed ∧
    { live.port with cmdReady := some (.cmdError 0 5 .badState) }.cmdReady ≠ none ∧
    (holding.control.ready ≠ none ∧ (withHead 4 0 [] holding).HeadIs 4 (cmd 4 0 []) [] ∧
      (withHead 3 0 [] { holding with control := { holding.control with state := .config } }).HeadIs 3 (cmd 3 0 []) []) ∧
    (holding.exchange.ready ≠ none ∧ (withHead 13 7 (releaseArgs 15 5) holding).HeadIs 13 (cmd 13 7 (releaseArgs 15 5)) [] ∧
      holding.control.state = .running ∧ (let e := cmd 13 7 (releaseArgs 15 5);
        (e.arg 6).extractLsb' 0 16 ++ e.arg 5 ≠ 0#48 ∧ (e.arg 0).extractLsb' 0 4 = 15#4)) ∧
    holding.index.ready ≠ none ∧ holding.lane.ready ≠ none ∧ holding.roster.ready ≠ none :=
  ⟨rfl, rfl, by decide, ⟨by decide, headIs rfl rfl (by decide) (by decide), headIs rfl rfl (by decide) (by decide)⟩,
    ⟨by decide, headIs rfl rfl (by decide) (by decide), rfl, by decide⟩, by decide, by decide, by decide⟩

theorem test_witness_ReportsFollowTheirLayouts : 0 < 131072 ∧ 131071 < 131072 ∧ 0 < 524288 ∧ 524287 < 524288 := by decide

/-! ## Witnesses: lanes -/

/-- One lane for each duty of R125. -/
theorem test_witness_LaneReportsGoRoundInOrder :
    live.DeadlinesActed ∧ (live.withLane 0 { abortList := [.aborted 0 0 .host 0 0] }).DeadlinesActed ∧
    live.lane.ready = none ∧ (∀ l, ¬(live.laneAt l).HasDuty) ∧
    (∀ k : LaneNo, (k - live.lane.next).val < ((0 : LaneNo) - live.lane.next).val → ¬(live.laneAt k).HasDuty) ∧
    (∃ r x, Lane.FirstDuty 0 { abortList := [.aborted 0 0 .host 0 0] } r x) ∧
    (∃ r x, Lane.FirstDuty 0 { state := .openLane, openedOwed := true } r x) ∧
    (∃ r x, Lane.FirstDuty 0 { state := .openLane, segments := [desc 0 2048], record := { offset := 2048 } } r x) ∧
    (∃ r x, Lane.FirstDuty 0 (laneOf [slotIn 0 (.resolved .new), slotIn 1 (.storing none true)]) r x) ∧
    (∃ r x, Lane.FirstDuty 0 (laneOf [slotIn 0 (.resolved (.unindexed .noAnswer))]) r x) ∧
    (∃ r x, Lane.FirstDuty 0 { state := .closing } r x) ∧ (∃ r x, Lane.FirstDuty 0 { state := .suspending } r x) := by
  have noSegment : ∀ w, ¬(laneOf w).HeadDone := by rintro w ⟨d, rest, h, _⟩; cases h
  refine ⟨rfl, rfl, rfl, fun l => ?_, fun k h => absurd h (Nat.not_lt_zero _), ⟨_, _, .abort _ _ rfl⟩, ⟨_, _, .opened rfl (by decide) rfl⟩,
    ⟨_, _, .segment _ _ rfl (by decide) rfl rfl ⟨_, _, rfl, by decide⟩⟩,
    ⟨_, _, .store [slotIn 0 (.resolved .new)] (slotIn 1 (.storing none true)) [] none rfl (by decide) rfl (noSegment _) rfl
      (by simp [slotIn]) (by simp [slotIn]) rfl⟩,
    ⟨_, _, .recipe _ _ _ rfl (by decide) rfl (noSegment _) (by simp [laneOf, slotIn]) rfl rfl⟩,
    ⟨_, _, .closed rfl rfl rfl rfl rfl⟩, ⟨_, _, .parked rfl rfl rfl rfl rfl⟩⟩
  rw [live_lane]
  rintro (h | ⟨h, _⟩) <;> exact h rfl

/-- A RECIPE of slot 3 of lane 0, whose entry is `askEntry` of index 0. -/
def recipe3 : Report := .recipe 0 3 0 100 7 .new 9

theorem bound0 : (withEntry0 askEntry live).BoundAt 0 3 0 := ⟨by rw [entry0]; rfl, fun _ h => absurd h (Nat.not_lt_zero _)⟩

/-- A FIFO of 1,013 words takes a RECIPE of 11, one of 1,014 does not; a choice that waits; each producer in turn. -/
theorem test_witness_ReportsAppendedWholeInTurn :
    holding.DeadlinesActed ∧ (withEntry0 askEntry live).DeadlinesActed ∧
    (let s := { live with lane := { live.lane with ready := some recipe3 } };
      (s.port.arbiterChoice = none ∧ ∀ p', s.readyReport p' ≠ none →
        Producer.distance s.port.arbiterLast .lane ≤ Producer.distance s.port.arbiterLast p') ∧
      s.readyReport .lane = some recipe3) ∧
    { live.port with arbiterChoice := some .index }.arbiterChoice = some .index ∧
    holding.readyReport .index = some (.bucketLost 0) ∧
    (1024 < (List.replicate 1014 (0 : Word)).length + recipe3.words.length ∧
      (List.replicate 1013 (0 : Word)).length + recipe3.words.length ≤ 1024) ∧
    (holding.control.startedOwed = none ∧ { holding.control with startedOwed := some true }.startedOwed = some true) ∧
    (withEntry0 askEntry live).BoundAt 0 3 0 ∧ (∀ i, ¬live.BoundAt 0 3 i) := by
  refine ⟨rfl, rfl, ⟨⟨rfl, fun p' h => ?_⟩, rfl⟩, rfl, rfl, by decide +kernel, ⟨rfl, rfl⟩, bound0, fun i h => ?_⟩
  · cases p' <;> first | exact absurd rfl h | decide
  · have : live.entry i = {} := by simp [live, idle, Station.reset, Exchange.reset, Station.entry]
    have := h.1; simp_all

/-- OPEN and RESUME on a FREE lane, and on one that still holds an abort list. -/
theorem test_witness_OpenResumeAndSegmentDecided :
    LaneHyp 5 2 [0x00110000, 9] {} ∧ LaneHyp 11 16 [0, 9, 17] {} ∧
    (({} : Lane).state = .free ∧ ({} : Lane).abortList = []) ∧ (laneOf []).state ≠ .free ∧
    ({ abortList := [.aborted 0 0 .host 0 0] } : Lane).abortList ≠ [] :=
  ⟨laneHyp _ rfl (by decide) (by decide) rfl, laneHyp _ rfl (by decide) (by decide) rfl, by decide, by decide, by decide⟩

/-- SEGMENT: lengths 0, 1, 1,048,576 and 1,048,577; seven and eight descriptors; an empty queue and one with a tail. -/
theorem test_witness_OpenResumeAndSegmentDecided_segment :
    (∀ x ∈ [({} : Lane), { state := .closing }, { state := .suspending }, laneOf [],
      { laneOf [] with segments := List.replicate 8 (desc 0 0) }, { laneOf [] with segments := List.replicate 7 (desc 0 0) }],
      ∀ n ∈ [0, 1, 1048576, 1048577],
        LaneHyp 6 4 [0, 0, 0, BitVec.ofNat 32 n] x ∧ ((cmd 6 4 [0, 0, 0, BitVec.ofNat 32 n]).arg 3).toNat = n) ∧
    ((laneOf []).segments = [] ∧ List.replicate 7 (desc 0 0) = List.replicate 6 (desc 0 0) ++ [desc 0 0]) := by
  refine ⟨fun x _ n hn => ⟨laneHyp _ rfl (by decide) (by decide) rfl, ?_⟩, rfl, rfl⟩
  simp at hn
  rcases hn with rfl | rfl | rfl | rfl <;> rfl

/-- A lane whose slot 3 is STORING with its STORE reported, between two others. -/
def storingLane (u : Option Reason) : Lane :=
  laneOf [slotIn 2 .committing, slotIn 3 (.storing u false), slotIn 4 (.storing none true)]

theorem test_witness_StoredTakesTheLocator :
    LaneHyp 7 4 [0, 3, 5, 0] (storingLane none) ∧ LaneHyp 7 4 [0, 3, 5, 0] (storingLane (some .noAnswer)) ∧
    LaneHyp 7 4 [0, 3, 5, 0] {} ∧ LaneHyp 7 4 [0, 3, 0, 0xFFFF0000] (laneOf []) ∧
    ((0xFFFF0000#32).extractLsb' 0 16 ++ 0#32 = 0#48 ∧ (0#32).extractLsb' 0 16 ++ 5#32 ≠ 0#48) ∧
    (∀ y ∈ (laneOf [slotIn 3 (.storing none true)]).window, y.seq = 3 → ∀ u, y.state ≠ .storing u false) ∧
    (∀ z ∈ [slotIn 2 .committing] ++ [slotIn 4 (.storing none true)], z.seq ≠ 3) ∧
    (withEntry0 askEntry live).BoundAt 0 3 0 ∧ (∀ i, (live.entry i).binding ≠ some ⟨0, 3⟩) := by
  refine ⟨laneHyp _ rfl (by decide) (by decide) rfl, laneHyp _ rfl (by decide) (by decide) rfl,
    laneHyp _ rfl (by decide) (by decide) rfl, laneHyp _ rfl (by decide) (by decide) rfl, by decide,
    by simp [laneOf, slotIn], by decide, bound0, fun i => ?_⟩
  have : live.entry i = {} := by simp [live, idle, Station.reset, Exchange.reset, Station.entry]
  simp [this]

theorem test_witness_AbortAndStoreFailedEndLane :
    LaneHyp 12 1 [0] {} ∧ LaneHyp 12 1 [0] (storingLane none) ∧ LaneHyp 8 2 [0, 3] {} ∧
    LaneHyp 8 2 [0, 9] (storingLane none) ∧ LaneHyp 8 2 [0, 3] (storingLane none) ∧ (storingLane none).state ≠ .free ∧
    (∀ y ∈ (storingLane none).window, y.seq = (cmd 8 2 [0, 9]).arg 1 → ∀ u, y.state ≠ .storing u false) ∧
    (∀ z ∈ [slotIn 2 .committing], z.seq ≠ (cmd 8 2 [0, 3]).arg 1) := by
  refine ⟨laneHyp _ rfl (by decide) (by decide) rfl, laneHyp _ rfl (by decide) (by decide) rfl,
    laneHyp _ rfl (by decide) (by decide) rfl, laneHyp _ rfl (by decide) (by decide) rfl,
    laneHyp _ rfl (by decide) (by decide) rfl, by decide, ?_, by decide⟩
  intro y hy h
  simp [storingLane, laneOf] at hy
  rcases hy with rfl | rfl | rfl <;> exact absurd h (by decide)

/-- FREE, CLOSING and SUSPENDING lanes; a lane with bytes left or without a FILLING slot; one whose last byte is consumed. -/
theorem test_witness_CloseAndSuspendDrainLane :
    (∀ x ∈ [({} : Lane), { state := .closing }, { state := .suspending }, busyLane, laneOf [],
        { laneOf [slotIn 0 .filling] with segments := [desc 0 2048] }],
      LaneHyp 9 1 [0] x ∧ LaneHyp 10 1 [0] x) ∧
    ¬((∀ d ∈ busyLane.segments, d.length ≤ d.consumed) ∧ ∀ b, live.chunker.burst = some b → b.lane = 0 → b.void = true) ∧
    ((∀ d ∈ [desc 0 2048], d.length ≤ d.consumed) ∧ ∀ b, live.chunker.burst = some b → b.lane = 0 → b.void = true) ∧
    (∀ y ∈ (laneOf []).window, y.state ≠ .filling) ∧ (slotIn 0 .filling).state = .filling :=
  ⟨fun x _ => ⟨laneHyp _ rfl (by decide) (by decide) rfl, laneHyp _ rfl (by decide) (by decide) rfl⟩,
    fun h => absurd (h.1 (desc 0 100) (by decide)) (by decide), ⟨by decide, fun _ h => (nomatch h)⟩, by decide, rfl⟩

/-- A void burst of the lane, left in flight by an earlier life of it, beside a lane whose last byte is consumed; the same
burst not void. -/
theorem test_witness_CloseAndSuspendDrainLane_void :
    let x := { laneOf [slotIn 0 .filling] with segments := [desc 0 2048] }
    let s (void : Bool) := { withHead 9 1 [0] (live.withLane 0 x) with chunker := { live.chunker with burst := some ⟨0, 7, 512, void⟩ } }
    ((s true).DeadlinesActed ∧ (s true).HeadIs 9 (cmd 9 1 [0]) [] ∧ (s true).laneAt 0 = x ∧
      (∀ d ∈ x.segments, d.length ≤ d.consumed) ∧ ∀ b, (s true).chunker.burst = some b → b.lane = 0 → b.void = true) ∧
    ¬(∀ b, (s false).chunker.burst = some b → b.lane = 0 → b.void = true) :=
  ⟨⟨rfl, ⟨rfl, rfl, by decide, by decide⟩, laneAt_withLane live 0 _, by decide, fun b h _ => by cases h; rfl⟩,
    fun h => absurd (h _ rfl rfl) (by decide)⟩

/-! ## Witnesses: the index unit -/

/-- Table memory with every bucket empty. -/
def emptied (s : Station) : Station := { s with index := { s.index with table := ⟨[], 524288⟩ } }

theorem opens_empty {s : Station} {b : Nat} (h : b < 524288) : (emptied s).Opens b emptyPlaces := by
  have : (emptied s).index.table.read b = emptyBucket := by
    simp [emptied, ShardTable.read, cellsRead, cellsFind, ShardTable.dflt, h]
  exact ⟨by rw [this]; exact emptyBucket_wellFormed b, by rw [this]; rfl⟩

/-- Table memory with these places in bucket 0. -/
def filed (ps : Vector Place 8) (s : Station) : Station :=
  { s with index := { s.index with table := ⟨[(0, sealPlaces ps)], 524288⟩ } }

theorem opens_filed {s : Station} {ps : Vector Place 8} (h : ps.toList.all (Place.wellFormed 0) = true)
    (hn : (placesKeys ps).Nodup) : (filed ps s).Opens 0 ps := by
  have : (filed ps s).index.table.read 0 = sealPlaces ps := rfl
  refine ⟨?_, by rw [this]; rfl⟩
  rw [this]
  simp only [Bucket.wellFormed, sealPlaces_code, beq_self_eq_true, Bool.true_and, Bool.and_eq_true]
  exact ⟨h, decide_eq_true hn⟩

/-- Places 0 to n − 1 hold keys of pool 0 and fingerprints 0 to n − 1, all of bucket 0, with this count. -/
def places (n : Nat) (count : BitVec 16) : Vector Place 8 :=
  Vector.ofFn fun i => if i.val < n then ⟨true, 0, BitVec.ofNat 128 i.val, 5, count⟩ else {}

theorem opens_places (s : Station) (n : Fin 9) (c : BitVec 16) (h : c = 1 ∨ c = 2 ∨ c = 65534 ∨ c = 65535) :
    (filed (places n.val c) s).Opens 0 (places n.val c) := by
  refine opens_filed ?_ ?_ <;> rcases h with rfl | rfl | rfl | rfl <;> revert n <;> decide +kernel

/-- The key of pool 0 and fingerprint `n`. -/
def keyNo (n : Nat) : Key := ⟨0, BitVec.ofNat 128 n⟩

/-- A station whose index work queue holds one item. -/
def withItem (item : WorkItem) (s : Station) : Station := { s with index := { s.index with queue := [item] } }

theorem takes_item {item : WorkItem} {s : Station} (h1 : s.control.state = .running) (h2 : s.index.write = none)
    (h3 : s.index.answers = []) (h4 : s.index.ready = none)
    (h5 : ∀ (p : ClaimPos) (c : Claim), s.index.claims[p] = some c → c.due = none) : (withItem item s).TakesItem item [] :=
  ⟨h1, h2, h3, h4, h5, rfl⟩

theorem live_claims (p : ClaimPos) : live.index.claims[p] = none := by
  simp [live, idle, Station.reset, IndexUnit.reset]

theorem live_takes (item : WorkItem) (table : ShardTable) :
    (withItem item { live with index := { live.index with table := table } }).TakesItem item [] :=
  takes_item rfl rfl rfl rfl fun p c h => by
    have h : live.index.claims[p] = some c := h
    rw [live_claims] at h; cases h

theorem claimed_takes (item : WorkItem) (c : Claim) (h : c.due = none) (table : ShardTable) :
    (withItem item (withClaim0 c { live with index := { live.index with table := table } })).TakesItem item [] :=
  takes_item rfl rfl rfl rfl fun p d hd => by rw [(claim_only0 hd).2]; exact h

/-- A claim of the key of pool 0 and fingerprint 0, written by tag 0 of station 1, with tags 1 to n of it waiting. -/
def claimWith (n : Nat) : Claim :=
  ⟨keyNo 0, 0, ⟨1, 0⟩, 64, none, (List.range n).map fun i => ⟨1, BitVec.ofNat 12 (i + 1)⟩⟩

theorem claimed_at0 (n : Nat) (s : Station) : (withClaim0 (claimWith n) s).ClaimedAt (keyNo 0) 0 (claimWith n) :=
  ⟨claim0 _ _, rfl, fun _ _ h => absurd h (Nat.not_lt_zero _)⟩

theorem not_claimed (k : Key) : live.NotClaimed k := fun p c h => by rw [live_claims] at h; cases h

theorem not_committed_empty (k : Key) : NotCommitted k emptyPlaces := by
  intro i h
  have : emptyPlaces[i].used = false := by simp [emptyPlaces]
  rw [this] at h; cases h.1

theorem held0 (c : BitVec 16) : HeldAt (keyNo 0) (places 1 c) 0 :=
  ⟨by simp [places, keyNo], fun _ h => absurd h (Nat.not_lt_zero _)⟩

theorem free0 : live.FreeAt 0 := ⟨live_claims 0, fun _ h => absurd h (Nat.not_lt_zero _)⟩

theorem sum_places (n : Fin 9) : live.sumOf 0 (places n.val 1) = n.val := by
  have h : live.index.claims.toList = List.replicate 128 none := rfl
  unfold Station.sumOf
  rw [h]
  revert n; decide

/-- Cluster size 15 and the pools that are next to each other. -/
theorem test_witness_KeysAndBucketsFollowTheirRules : (15 : BitVec 4) ≠ 0 ∧ (0 : Pool) ≠ 15 := by decide

/-- Pool 15; counts 65,534 and 65,535; the writer, a waiter, and a new pair with five and six waiting; 128 claims; bucket sums
7 and 8. -/
theorem test_witness_AskDecided :
    (withItem (.ask ⟨1, 9⟩ ⟨15, 0⟩) (emptied live)).DeadlinesActed ∧ (withItem (.ask ⟨1, 9⟩ (keyNo 0)) (filed (places 1 65535) live)).DeadlinesActed ∧ (withItem (.ask ⟨1, 9⟩ (keyNo 0)) (withClaim0 (claimWith 5) (emptied live))).DeadlinesActed ∧
    ((withItem (.ask ⟨1, 9⟩ ⟨15, 0⟩) (emptied live)).TakesItem (.ask ⟨1, 9⟩ ⟨15, 0⟩) [] ∧
      (emptied live).Opens (bucketIndex ⟨15, 0⟩) emptyPlaces) ∧
    (∀ c : BitVec 16, c = 65534 ∨ c = 65535 →
      (withItem (.ask ⟨1, 9⟩ (keyNo 0)) (filed (places 1 c) live)).TakesItem (.ask ⟨1, 9⟩ (keyNo 0)) [] ∧
      (filed (places 1 c) live).Opens (bucketIndex (keyNo 0)) (places 1 c) ∧ HeldAt (keyNo 0) (places 1 c) 0) ∧
    (∀ n ∈ [0, 5, 6], (withItem (.ask ⟨1, 9⟩ (keyNo 0)) (withClaim0 (claimWith n) (emptied live))).TakesItem
        (.ask ⟨1, 9⟩ (keyNo 0)) [] ∧
      (withClaim0 (claimWith n) (emptied live)).ClaimedAt (keyNo 0) 0 (claimWith n) ∧
      (⟨1, 0⟩ : Pair) = (claimWith n).writer ∧ (⟨1, 9⟩ : Pair) ∉ (claimWith n).waiters ∧ (claimWith n).waiters.length = n) ∧
    (⟨1, 1⟩ : Pair) ∈ (claimWith 5).waiters ∧ NotCommitted (keyNo 0) emptyPlaces ∧ live.NotClaimed (keyNo 8) ∧
    (∀ p : ClaimPos, (Vector.replicate 128 (some (claimWith 0)))[p] ≠ none) ∧
    (live.FreeAt 0 ∧ live.sumOf 0 (places 8 1) = 8 ∧ live.sumOf 0 (places 7 1) = 7) ∧
    (NotCommitted (keyNo 8) (places 8 1) ∧ (filed (places 8 1) live).Opens (bucketIndex (keyNo 8)) (places 8 1)) := by
  refine ⟨rfl, rfl, rfl, ⟨live_takes _ _, opens_empty (by decide)⟩, fun c h => ⟨live_takes _ _, ?_, held0 c⟩, fun n h => ?_, by decide,
    not_committed_empty _, not_claimed _, fun p => by simp, ⟨free0, sum_places 8, sum_places 7⟩, ?_, opens_places live 8 1 (.inl rfl)⟩
  · exact opens_places live 1 c (h.elim (fun h => .inr (.inr (.inl h))) fun h => .inr (.inr (.inr h)))
  · refine ⟨claimed_takes _ _ rfl _, claimed_at0 _ _, rfl, ?_⟩
    simp at h
    rcases h with rfl | rfl | rfl <;> decide
  · unfold NotCommitted; decide

theorem test_witness_CommitDecided :
    (withItem (.commit ⟨1, 9⟩ (keyNo 0) 7) (filed (places 1 65535) live)).DeadlinesActed ∧ (withItem (.commit ⟨1, 2⟩ (keyNo 0) 7) (withClaim0 (claimWith 3) (emptied live))).DeadlinesActed ∧
    ((withItem (.commit ⟨1, 9⟩ ⟨15, 0⟩ 7) (emptied live)).TakesItem (.commit ⟨1, 9⟩ ⟨15, 0⟩ 7) [] ∧
      (emptied live).Opens (bucketIndex ⟨15, 0⟩) emptyPlaces) ∧
    (∀ c : BitVec 16, c = 65534 ∨ c = 65535 → ∀ l : Locator,
      (withItem (.commit ⟨1, 9⟩ (keyNo 0) l) (filed (places 1 c) live)).TakesItem (.commit ⟨1, 9⟩ (keyNo 0) l) [] ∧
      (filed (places 1 c) live).Opens (bucketIndex (keyNo 0)) (places 1 c) ∧ HeldAt (keyNo 0) (places 1 c) 0) ∧
    ((places 1 65535)[0].locator = 5 ∧ (places 1 65535)[0].locator ≠ 7) ∧
    ((withItem (.commit ⟨1, 2⟩ (keyNo 0) 7) (withClaim0 (claimWith 3) (emptied live))).TakesItem
        (.commit ⟨1, 2⟩ (keyNo 0) 7) [] ∧
      NotCommitted (keyNo 0) emptyPlaces ∧ (withClaim0 (claimWith 3) (emptied live)).ClaimedAt (keyNo 0) 0 (claimWith 3) ∧
      EmptyAt emptyPlaces 0 ∧ (claimWith 3).waiters = [⟨1, 1⟩] ++ ⟨1, 2⟩ :: [⟨1, 3⟩] ∧ (⟨1, 0⟩ : Pair) ∉ (claimWith 3).waiters) ∧
    (live.NotClaimed (keyNo 8) ∧ EmptyAt (places 7 1) 7 ∧ live.sumOf 0 (places 7 1) = 7 ∧ live.sumOf 0 (places 8 1) = 8 ∧
      NotCommitted (keyNo 8) (places 7 1) ∧ NotCommitted (keyNo 8) (places 8 1)) := by
  refine ⟨rfl, rfl, ⟨live_takes _ _, opens_empty (by decide)⟩, fun c h l => ⟨live_takes _ _, ?_, held0 c⟩, by decide,
    ⟨claimed_takes _ _ rfl _, not_committed_empty _, claimed_at0 _ _, ⟨by decide, fun _ h => absurd h (Nat.not_lt_zero _)⟩,
      by decide, by decide⟩, not_claimed _, ?_, sum_places 7, sum_places 8, ?_, ?_⟩
  · exact opens_places live 1 c (h.elim (fun h => .inr (.inr (.inl h))) fun h => .inr (.inr (.inr h)))
  · unfold EmptyAt; decide
  · unfold NotCommitted; decide
  · unfold NotCommitted; decide

/-- A claim of the key that is due since advance 64. -/
def dueClaim (n : Nat) : Claim := { claimWith n with due := some 64 }

theorem takes_expiry (n : Nat) (table : ShardTable) :
    (withClaim0 (dueClaim n) { live with index := { live.index with table := table } }).TakesExpiry 0 (dueClaim n) 64 := by
  refine ⟨rfl, rfl, rfl, rfl, claim0 _ _, rfl, fun p c m h hd => ?_⟩
  obtain ⟨rfl, rfl⟩ := claim_only0 h
  cases hd
  exact .inr ⟨rfl, Nat.le_refl _⟩

/-- A DROP of the writer, one of a waiter and one for no claim; an expiry with waiters and without; a PEER item of the writer's
station and of another. -/
theorem test_witness_ClaimsReleasedAndPassedOn :
    (withItem (.drop ⟨1, 0⟩ (keyNo 0)) (withClaim0 (claimWith 2) (emptied live))).DeadlinesActed ∧ (withClaim0 (dueClaim 2) (emptied live)).DeadlinesActed ∧ (withItem (.peerLost 1) (withClaim0 (claimWith 2) live)).DeadlinesActed ∧
    (emptied live).Opens 0 emptyPlaces ∧
    (∀ x : Pair, (withItem (.drop x (keyNo 0)) (withClaim0 (claimWith 2) (emptied live))).TakesItem (.drop x (keyNo 0)) []) ∧
    0 = bucketIndex (keyNo 0) ∧ (withClaim0 (claimWith 2) (emptied live)).ClaimedAt (keyNo 0) 0 (claimWith 2) ∧
    ((claimWith 2).writer = ⟨1, 0⟩ ∧ (claimWith 2).writer ≠ ⟨1, 1⟩) ∧ live.NotClaimed (keyNo 0) ∧
    (∀ n ∈ [0, 2], (withClaim0 (dueClaim n) (emptied live)).TakesExpiry 0 (dueClaim n) 64 ∧ 0 = (dueClaim n).bucket) ∧
    (∀ p : StationNo, (withItem (.peerLost p) (withClaim0 (claimWith 2) live)).TakesItem (.peerLost p) [] ∧
      (withItem (.peerRestarted p) (withClaim0 (claimWith 2) live)).TakesItem (.peerRestarted p) []) :=
  ⟨rfl, rfl, rfl, opens_empty (by decide), fun _ => claimed_takes _ _ rfl _, by decide, claimed_at0 _ _, by decide, not_claimed _,
    fun n _ => ⟨takes_expiry n _, rfl⟩, fun _ => ⟨claimed_takes _ _ rfl _, claimed_takes _ _ rfl _⟩⟩

/-- Counts 1, 2 and 65,535, another locator and another key; a record that the item repeats and none. -/
theorem test_witness_ReleaseDecidedOnceAndRepeated :
    (withItem (.release ⟨14, 9⟩ (keyNo 0) 5) (filed (places 1 1) live)).DeadlinesActed ∧
    (∀ l : Locator, (withItem (.release ⟨14, 9⟩ (keyNo 0) l) (filed (places 1 1) live)).TakesItem
      (.release ⟨14, 9⟩ (keyNo 0) l) []) ∧
    (∀ c : BitVec 16, c = 1 ∨ c = 2 ∨ c = 65534 ∨ c = 65535 →
      (filed (places 1 c) live).Opens (bucketIndex (keyNo 0)) (places 1 c)) ∧
    (14 : StationNo).toNat = (14 : Fin 15).val ∧
    ((live.index.records.set 14 (some ⟨9, keyNo 0, 5, .counted⟩))[(14 : Fin 15)] = some ⟨9, keyNo 0, 5, .counted⟩) ∧
    (∀ o, live.index.records[(14 : Fin 15)] ≠ some ⟨9, keyNo 0, 5, o⟩) ∧
    (∃ w, ReleaseDecides (keyNo 0) 5 (places 1 1) w .retired) ∧ (∃ w, ReleaseDecides (keyNo 0) 5 (places 1 2) w .counted) ∧
    (∃ w, ReleaseDecides (keyNo 0) 5 (places 1 65534) w .counted) ∧
    (∃ w, ReleaseDecides (keyNo 0) 5 (places 1 65535) w .pinned) ∧
    (∃ w, ReleaseDecides (keyNo 0) 6 (places 1 1) w .notFound) ∧ (∃ w, ReleaseDecides (keyNo 8) 5 emptyPlaces w .notFound) := by
  refine ⟨rfl, fun _ => live_takes _ _, fun c h => opens_places live 1 c h, rfl, rfl, fun o h => ?_,
    ⟨_, .retired 0 (held0 1) rfl rfl⟩, ⟨_, .counted 0 (held0 2) rfl (by decide) (by decide)⟩,
    ⟨_, .counted 0 (held0 _) rfl (by decide) (by decide)⟩, ⟨_, .pinned 0 (held0 _) rfl rfl⟩,
    ⟨_, .other 0 (held0 1) (by decide)⟩, ⟨_, .absent (not_committed_empty _)⟩⟩
  have : live.index.records[(14 : Fin 15)] = none := rfl
  rw [this] at h; cases h

/-- Every bucket of table memory never written is damaged, for each command that reads one. -/
theorem test_witness_DamagedBucketTakenAsEmptyAndReported :
    (withItem (.ask ⟨1, 9⟩ (keyNo 0)) live).DeadlinesActed ∧ (withClaim0 (dueClaim 1) live).DeadlinesActed ∧
    (live.index.table.read 0).wellFormed 0 = false ∧
    (withItem (.ask ⟨1, 9⟩ (keyNo 0)) live).Reads .ask 0 ∧ (withItem (.commit ⟨1, 9⟩ (keyNo 0) 5) live).Reads .commit 0 ∧
    (withItem (.drop ⟨1, 9⟩ (keyNo 0)) live).Reads .drop 0 ∧
    (withItem (.release ⟨1, 9⟩ (keyNo 0) 5) live).Reads .releaseItem 0 ∧
    (withClaim0 (dueClaim 1) live).Reads .leaseExpiry 0 :=
  ⟨rfl, rfl, unwrittenBucket_damaged 0, .ask _ (keyNo 0) _ (live_takes _ _), .commit _ (keyNo 0) _ _ (live_takes _ _),
    .drop _ (keyNo 0) _ (live_takes _ _), .release _ (keyNo 0) _ _ (live_takes _ _),
    .expiry 0 (dueClaim 1) 64 (takes_expiry 1 _)⟩

theorem test_witness_BucketWritesComplete :
    writing.DeadlinesActed ∧ scrubbing.DeadlinesActed ∧
    writing.index.write = some (0, emptyBucket) ∧
    (scrubbing.index.scrub = some 1 ∧ scrubbing.control.state = .scrub ∧ 1 + 1 < 524288) ∧
    (524286 + 1 < 524288 ∧ 524288 ≤ 524287 + 1) ∧ scrubbing.control.ready = none ∧ holding.control.ready ≠ none :=
  ⟨rfl, rfl, rfl, ⟨rfl, rfl, by decide⟩, by decide, rfl, by decide⟩

/-- One answer to hand on, to a station and tag. -/
def answering (p : StationNo) (s : Station) : Station :=
  { s with index := { s.index with answers := [⟨⟨p, 0x125⟩, .verdict .write⟩] } }

/-- `n` ASKs in the transmit queue. -/
def withAsks (n : Nat) (s : Station) : Station :=
  { s with bus := { s.bus with tx := List.replicate n ⟨⟨2, 1, 0, .ask (keyNo 0)⟩, .exchange, 0, .waiting⟩ } }

/-- The exchange unit waiting with the ASK of entry 0 for the transmit queue. -/
def offering : Station :=
  { withEntry0 askEntry live with
    exchange := { (withEntry0 askEntry live).exchange with offerBus := some ⟨0, 1, .ask⟩ } }

theorem offering_waits : offering.pathWaits .bus = true := by
  have : offering.entry 0 = askEntry := entry0 askEntry live
  show offering.offerStands .bus ⟨0, 1, .ask⟩ = true
  simp only [Station.offerStands, Station.offers, this]
  decide

theorem test_witness_AnswersLeaveByTheirPath :
    (answering 2 live).DeadlinesActed ∧ (answering 2 writing).DeadlinesActed ∧ (answering 1 offering).DeadlinesActed ∧
    (answering 2 writing).index.write ≠ none ∧
    ((answering 2 live).index.write = none ∧ (answering 2 live).index.answers = ⟨⟨2, 0x125⟩, .verdict .write⟩ :: [] ∧
      (2 : StationNo) = live.control.straps.number ∧ (⟨1, 2, 0x125, .answer (.verdict .write)⟩ : Frame).tag = 0x125) ∧
    ((1 : StationNo) ≠ live.control.straps.number ∧ 48 ≤ (withAsks 48 live).bus.tx.length ∧
      (withAsks 47 live).bus.tx.length < 48) ∧
    ((withAsks 47 live).bus.tx = [] ++ (withAsks 47 live).bus.tx ∧
      (∀ f ∈ (withAsks 47 live).bus.tx, f.frame.body.cls ≠ 0) ∧ live.pathWaits .bus = false) ∧
    (offering.pathWaits .bus = true ∧ offering.bus.tx.length < 48 ∧ offering.bus.indexWaits = false ∧
      { offering.bus with indexWaits := true }.txLast ≠ .index ∧
      { offering.bus with indexWaits := true, txLast := .index }.txLast = .index) :=
  ⟨rfl, rfl, rfl, by decide, ⟨rfl, rfl, rfl, rfl⟩, by decide, ⟨rfl, by decide, rfl⟩, offering_waits, by decide, rfl, by decide, rfl⟩

/-- `n` items in the index work queue. -/
def withWork (n : Nat) (s : Station) : Station :=
  { s with index := { s.index with queue := List.replicate n (.peerLost 1) } }

/-- An ASK of station 1 at the inbound head. -/
def askInbound (s : Station) : Station :=
  { s with bus := { s.bus with inbound := [⟨1, 2, 0x125, .ask (keyNo 0)⟩] } }

/-- The exchange unit waiting with a self-owned ASK of entry 0 for the index work queue. -/
def selfOffering : Station :=
  { withEntry0 { askEntry with owner := 2 } live with
    exchange := { (withEntry0 { askEntry with owner := 2 } live).exchange with offerSelf := some ⟨0, 1, .ask⟩ } }

theorem selfOffering_stands : selfOffering.offerStands .self ⟨0, 1, .ask⟩ = true := by
  have : selfOffering.entry 0 = { askEntry with owner := 2 } := entry0 { askEntry with owner := 2 } live
  simp only [Station.offerStands, Station.offers, this]
  decide

theorem selfOffering_waits : selfOffering.pathWaits .self = true := selfOffering_stands

theorem test_witness_WorkQueueAdmitsInTurn :
    (askInbound live).DeadlinesActed ∧ selfOffering.DeadlinesActed ∧
    ((askInbound live).bus.inbound = ⟨1, 2, 0x125, .ask (keyNo 0)⟩ :: [] ∧
      ∃ k, (⟨1, 2, 0x125, .ask (keyNo 0)⟩ : Frame).body = .ask k ∧
        (WorkItem.ask ⟨1, 0x125⟩ (keyNo 0)) = .ask ⟨1, 0x125⟩ k) ∧
    32 ≤ (withWork 32 live).index.queue.length ∧
    ((withWork 31 live).index.queue.length < 32 ∧ ∀ src, (withWork 31 live).sourceWaits src = false) ∧
    (let s := { askInbound live with bus := { (askInbound live).bus with inboundWaits := true } };
      s.bus.inboundWaits = true ∧ ∀ src, s.sourceWaits src = true →
        Source.distance s.index.admittedLast .bus ≤ Source.distance s.index.admittedLast src) ∧
    (let s := { live with roster := { live.roster with held := some (.peerLost 1) } };
      s.roster.held = some (.peerLost 1) ∧ ∀ src, s.sourceWaits src = true →
        Source.distance s.index.admittedLast .roster ≤ Source.distance s.index.admittedLast src) ∧
    (selfOffering.exchange.offerSelf = some ⟨0, 1, .ask⟩ ∧ selfOffering.offerStands .self ⟨0, 1, .ask⟩ = true ∧
      ∀ src, selfOffering.sourceWaits src = true →
        Source.distance selfOffering.index.admittedLast .exchange ≤ Source.distance selfOffering.index.admittedLast src) := by
  refine ⟨rfl, rfl, ⟨rfl, _, rfl, rfl⟩, by decide, ⟨by decide, fun src => by cases src <;> rfl⟩,
    ⟨rfl, fun src h => ?_⟩, ⟨rfl, fun src h => ?_⟩, rfl, selfOffering_stands, fun src h => ?_⟩
  · cases src <;> decide
  · cases src <;> first | exact absurd h (by decide) | decide
  · cases src <;> first | exact absurd h (by decide) | decide

/-! ## Witnesses: the exchange unit -/

/-- A frame that carries an answer from station 1 under tag H'100, index 0 of round 1, at the inbound head. -/
def answered (a : AnswerBody) (s : Station) : Station :=
  { s with bus := { s.bus with inbound := [⟨1, 2, 0x100, .answer a⟩] } }

theorem answer_head (a : AnswerBody) (s : Station) : (answered a s).AnswerHead ⟨1, 2, 0x100, .answer a⟩ [] a 0 :=
  ⟨rfl, rfl, show (0x100 : Tag).toNat % 256 = 0 by decide⟩

/-- The answer of tag H'100 is accepted by an entry of round 1 that is neither FREE nor closing. -/
theorem accepts {e : Entry} {s : Station} (a : AnswerBody) (h1 : e.state ≠ .free) (h2 : e.closing = false) (h3 : e.round = 1) :
    (answered a (withEntry0 e s)).Accepts ⟨1, 2, 0x100, .answer a⟩ 0 := by
  have h : (answered a (withEntry0 e s)).entry 0 = e := entry0 e s
  refine ⟨by rw [h]; exact h1, by rw [h]; exact h2, by rw [h, h3]; exact (show (1 : BitVec 4).toNat = (0x100 : Tag).toNat / 256 by decide)⟩

/-- An entry of round 1 in a state. -/
def entryIn (state : EntryState) : Entry := { askEntry with state := state }

theorem accepts_in (a : AnswerBody) (state : EntryState) (h : state ≠ .free) :
    (answered a (withEntry0 (entryIn state) live)).Accepts ⟨1, 2, 0x100, .answer a⟩ 0 ∧
      ((answered a (withEntry0 (entryIn state) live)).entry 0).state = state :=
  ⟨accepts a h rfl rfl, by rw [show (answered a (withEntry0 (entryIn state) live)).entry 0 = entryIn state from entry0 _ _]; rfl⟩

/-- FREE, closing and another round; every state that takes lookup answers or none. -/
theorem test_witness_LookupAnswersTaken :
    (answered (.verdict .write) (withEntry0 askEntry live)).DeadlinesActed ∧
    (∀ a, (answered a live).AnswerHead ⟨1, 2, 0x100, .answer a⟩ [] a 0) ∧
    (∀ a, ∀ e ∈ [({} : Entry), { askEntry with closing := true }, { askEntry with round := 2 }],
      ¬(answered a (withEntry0 e live)).Accepts ⟨1, 2, 0x100, .answer a⟩ 0) ∧
    (∀ a, ∀ state ∈ [EntryState.storing, .resolved, .asking, .holding],
      (answered a (withEntry0 (entryIn state) live)).Accepts ⟨1, 2, 0x100, .answer a⟩ 0 ∧
        ((answered a (withEntry0 (entryIn state) live)).entry 0).state = state) := by
  refine ⟨rfl, fun a => answer_head a live, fun a e he h => ?_, fun a state h => accepts_in a state ?_⟩
  · have e0 : (answered a (withEntry0 e live)).entry 0 = e := entry0 e live
    have h1 := h.1
    have h2 := h.2.1
    have h3 := h.2.2
    rw [e0] at h1 h2 h3
    simp at he
    rcases he with rfl | rfl | rfl
    · exact h1 rfl
    · cases h2
    · exact absurd h3 (show ¬(2 : BitVec 4).toNat = (0x100 : Tag).toNat / 256 by decide)
  · rintro rfl; revert h; decide

theorem test_witness_CommitAndReleaseAnswersTaken :
    (answered (.commitReply .indexed) (withEntry0 (entryIn .committing) live)).DeadlinesActed ∧
    (∀ a, ∀ state ∈ [EntryState.committing, .releasing],
      (answered a (withEntry0 (entryIn state) live)).Accepts ⟨1, 2, 0x100, .answer a⟩ 0 ∧
        ((answered a (withEntry0 (entryIn state) live)).entry 0).state = state) ∧
    (∀ a, (answered a live).AnswerHead ⟨1, 2, 0x100, .answer a⟩ [] a 0) ∧
    ({ entryIn .releasing with kind := .hostRelease }.kind = .hostRelease ∧
      { entryIn .releasing with kind := .compensation }.kind = .compensation ∧ ReleaseOutcome.counted ≠ .retired) := by
  refine ⟨rfl, fun a state h => accepts_in a state ?_, fun a => answer_head a live, rfl, rfl, by decide⟩
  rintro rfl; revert h; decide

theorem test_witness_OrphanAnswersCompensated :
    (answered (.verdict .hold) (withEntry0 (entryIn (.orphan .ask)) live)).DeadlinesActed ∧
    (∀ a, ∀ o : Origin, (answered a (withEntry0 (entryIn (.orphan o)) live)).Accepts ⟨1, 2, 0x100, .answer a⟩ 0 ∧
      ((answered a (withEntry0 (entryIn (.orphan o)) live)).entry 0).state = .orphan o) ∧
    (∀ a, (answered a live).AnswerHead ⟨1, 2, 0x100, .answer a⟩ [] a 0) :=
  ⟨rfl, fun a o => accepts_in a _ (by simp), fun a => answer_head a live⟩

theorem live_entry (i : EntryIndex) : live.entry i = {} := by
  simp [live, idle, Station.reset, Exchange.reset, Station.entry]

/-- A lookup and a host release at the head; the own number serving, a peer serving and one not. -/
theorem test_witness_TagsGrantedInOrder :
    live.DeadlinesActed ∧ twoPeers.DeadlinesActed ∧
    ([TagRequest.lookup 0 3 (keyNo 0) 1, .hostRelease (keyNo 0) 5 7 1] =
      .lookup 0 3 (keyNo 0) 1 :: [.hostRelease (keyNo 0) 5 7 1]) ∧
    ((live.entry 0).state = .free ∧ ∀ j : EntryIndex, j.val < (0 : EntryIndex).val → (live.entry j).state ≠ .free) ∧
    (live.Serves 2 ∧ twoPeers.Serves 0 ∧ ¬live.Serves 1) ∧ live.exchange.waitQueue = [] := by
  refine ⟨rfl, rfl, rfl, ⟨by rw [live_entry], fun j h => absurd h (Nat.not_lt_zero _)⟩, ⟨.inl ⟨rfl, rfl⟩, .inr ⟨by decide, by decide⟩, ?_⟩, rfl⟩
  rintro (⟨h, _⟩ | ⟨_, h⟩) <;> revert h <;> decide

theorem pending0 {e : Entry} (path : HandOnPath) (h1 : e.state ≠ .free) (h2 : e.request = some (.ask, .pending))
    (h3 : e.owed = none) (h4 : e.owner = 2 ↔ path = .self) : (withEntry0 e live).PendingOn path 0 := by
  refine ⟨by rw [entry0]; exact h1, ⟨.ask, by rw [entry0]; exact h2⟩, by rw [entry0]; exact h3, by rw [entry0]; exact h4⟩

/-- The self and bus paths with one request, queues with 31 or 47 and with 32 or 48 places taken, the index unit waiting. -/
theorem test_witness_RequestsHandedOnByPath :
    (withEntry0 askEntry live).DeadlinesActed ∧ (withWork 32 live).DeadlinesActed ∧ (withAsks 48 live).DeadlinesActed ∧ offering.DeadlinesActed ∧
    ((withEntry0 { askEntry with owner := 2 } live).HandsOnNext .self 0 ∧
      ((withEntry0 { askEntry with owner := 2 } live).entry 0).request = some (.ask, .pending)) ∧
    ((withWork 31 live).index.queue.length < 32 ∧ (∀ src, (withWork 31 live).sourceWaits src = false) ∧
      32 ≤ (withWork 32 live).index.queue.length) ∧
    (∀ j, ¬live.PendingOn .self j ∧ ¬live.PendingOn .bus j) ∧
    ((withEntry0 askEntry live).HandsOnNext .bus 0 ∧ ((withEntry0 askEntry live).entry 0).request = some (.ask, .pending)) ∧
    ((withAsks 47 live).bus.tx.length < 48 ∧ 48 ≤ (withAsks 48 live).bus.tx.length ∧
      (withAsks 47 live).bus.tx = (withAsks 47 live).bus.tx ++ [] ∧ (∀ f ∈ (withAsks 47 live).bus.tx, f.frame.body.cls ≤ 2)) ∧
    (offering.HandsOnNext .bus 0 ∧ { offering.bus with indexWaits := true }.indexWaits = true ∧
      { offering.bus with indexWaits := true, txLast := .index }.txLast ≠ .exchange ∧ offering.bus.txLast = .exchange) := by
  have none_before : ∀ j : EntryIndex, ¬(j - 0).val < ((0 : EntryIndex) - 0).val := fun j => Nat.not_lt_zero _
  refine ⟨rfl, rfl, rfl, rfl, ⟨.inr ⟨fun o h => (nomatch h), pending0 .self (by decide) rfl rfl (by decide), fun j h => absurd h (none_before j)⟩,
      by rw [entry0]; rfl⟩, ⟨by decide, fun src => by cases src <;> rfl, by decide⟩, fun j => ⟨fun h => ?_, fun h => ?_⟩,
    ⟨.inr ⟨fun o h => (nomatch h), pending0 .bus (by decide) rfl rfl (by decide), fun j h => absurd h (none_before j)⟩,
      by rw [entry0]; rfl⟩, ⟨by decide, by decide, by simp, by decide⟩,
    ⟨.inl ⟨⟨0, 1, .ask⟩, rfl, ⟨pending0 (e := askEntry) .bus (by decide) rfl rfl (by decide), ?_, ?_⟩, rfl⟩, rfl, by decide, rfl⟩⟩
  · exact h.1 (by rw [live_entry])
  · exact h.1 (by rw [live_entry])
  · exact congrArg Entry.round (entry0 askEntry live)
  · exact congrArg Entry.request (entry0 askEntry live)

/-- A closing entry that owes RECLAIM. -/
def owingEntry : Entry := { askEntry with owed := some (.reclaim 5), request := none, binding := none, closing := true }

theorem test_witness_OwedReportsMadeReadyInTurn :
    live.DeadlinesActed ∧ (withHead 13 7 (releaseArgs 15 5) live).DeadlinesActed ∧ (withEntry0 owingEntry live).DeadlinesActed ∧
    live.exchange.ready = none ∧
    ((withHead 13 7 (releaseArgs 15 5) live).HeadIs 13 (cmd 13 7 (releaseArgs 15 5)) [] ∧ live.control.state = .running ∧
      (let e := cmd 13 7 (releaseArgs 15 5); (e.arg 6).extractLsb' 0 16 ++ e.arg 5 ≠ 0#48 ∧ (e.arg 0).extractLsb' 0 4 = 15#4)) ∧
    (∀ e rest, (withEntry0 owingEntry live).HeadIs 13 e rest → False) ∧
    (((withEntry0 owingEntry live).entry 0).owed = some (.reclaim 5) ∧
      ∀ j : EntryIndex, (j - live.exchange.nextReport).val < ((0 : EntryIndex) - live.exchange.nextReport).val →
        ((withEntry0 owingEntry live).entry j).owed = none) ∧
    (∀ j, (live.entry j).owed = none) :=
  ⟨rfl, rfl, rfl, rfl, ⟨headIs rfl rfl (by decide) (by decide), rfl, by decide⟩, fun e rest h => (nomatch h.head),
    ⟨by rw [entry0]; rfl, fun j h => absurd h (Nat.not_lt_zero _)⟩, fun j => by rw [live_entry]⟩

/-- The clock at tick 64 with one deadline among those reached. -/
def atTick64 (d : Deadline) (s : Station) : Station :=
  { s with clock := { s.clock with now := 64, advances := 64, reached := [d] } }

theorem entry_due (sort : DeadlineSort) (state : EntryState) (d : Tick) (h : (64 - d).toNat < 32768) :
    let s := atTick64 (.entry 0) (withEntry0 { entryIn state with deadline := some (sort, d) } live)
    s.EntryDue sort 0 ∧ (s.entry 0).state = state := by
  have e0 : (atTick64 (.entry 0) (withEntry0 { entryIn state with deadline := some (sort, d) } live)).entry 0 =
    { entryIn state with deadline := some (sort, d) } := entry0 _ _
  exact ⟨⟨List.mem_singleton.2 rfl, d, by rw [e0], h⟩, by rw [e0]; rfl⟩

/-- Deadlines at the present tick and 32,767 ticks back, for every sort and state; a claim, a peer and the beacon. -/
theorem test_witness_DeadlinesActedOnce :
    (∀ d ∈ [(64 : Tick), 32833],
      (∀ state ∈ [EntryState.asking, .committing, .releasing],
        let s := atTick64 (.entry 0) (withEntry0 { entryIn state with deadline := some (.answer, d) } live);
        s.EntryDue .answer 0 ∧ (s.entry 0).state = state) ∧
      (let s := atTick64 (.entry 0) (withEntry0 { entryIn .holding with deadline := some (.hold, d) } live);
        s.EntryDue .hold 0 ∧ (s.entry 0).state = .holding) ∧
      (∀ o, let s := atTick64 (.entry 0) (withEntry0 { entryIn (.orphan o) with deadline := some (.orphanHold, d) } live);
        s.EntryDue .orphanHold 0 ∧ (s.entry 0).state = .orphan o)) ∧
    Deadline.entry 0 ∉ live.clock.reached ∧
    (let s := atTick64 (.claim 0) (withClaim0 (claimWith 1) live);
      Deadline.claim 0 ∈ s.clock.reached ∧ s.index.claims[(0 : ClaimPos)] = some (claimWith 1) ∧ (claimWith 1).due = none ∧
        (s.clock.now - (claimWith 1).deadline).toNat < 32768) ∧
    (let s := atTick64 (.peer 0) { live with roster := { live.roster with
          peers := live.roster.peers.set 0 { state := .serving, lastHeard := 16 } } };
      Deadline.peer 0 ∈ s.clock.reached ∧ (s.peer 0).state = .serving ∧ (s.peer 0).silence = false ∧
        (s.clock.now - ((s.peer 0).lastHeard + 48)).toNat < 32768) ∧
    (let s := atTick64 .beacon { live with roster := { live.roster with beaconDeadline := some 64 } };
      Deadline.beacon ∈ s.clock.reached ∧ s.roster.beaconDeadline = some 64 ∧ (s.clock.now - 64).toNat < 32768) := by
  refine ⟨fun d hd => ?_, by decide, ⟨by decide, claim0 _ _, rfl, by decide⟩, ⟨by decide, by decide, by decide, by decide⟩,
    by decide, rfl, by decide⟩
  have h : (64 - d).toNat < 32768 := by
    simp at hd
    rcases hd with rfl | rfl <;> decide
  exact ⟨fun state _ => entry_due .answer state d h, entry_due .hold .holding d h, fun o => entry_due .orphanHold _ d h⟩

/-- Two deadlines on the list, a claim's first and an entry's first; an entry's deadline that is no longer reached; a command
that is no row of a deadline. -/
theorem test_witness_DeadlinesActedOnce_first :
    (let s := { withClaim0 (claimWith 1) live with clock := { live.clock with now := 64, reached := [.claim 0, .beacon] } };
      s.clock.reached = Deadline.claim 0 :: [.beacon] ∧ Deadline.Row (.claim 0) (.leaseDeadline 0) ∧
        ∃ t, exec (.leaseDeadline 0) ⟨s, []⟩ = .next t) ∧
    (let s := { withEntry0 { askEntry with deadline := some (.answer, 65) } live with
        clock := { live.clock with now := 64, reached := [.entry 0] } };
      s.clock.reached = Deadline.entry 0 :: [] ∧
        ∀ k v, (s.entry 0).deadline = some (k, v) → 32768 ≤ (s.clock.now - v).toNat) ∧
    (∀ d', ¬Deadline.Row d' .commit) := by
  refine ⟨⟨rfl, .claim 0, _, rfl⟩, ⟨rfl, fun k v h => ?_⟩, fun d' h => (nomatch h)⟩
  have h : some (DeadlineSort.answer, (65 : Tick)) = some (k, v) :=
    (congrArg Entry.deadline (entry0 { askEntry with deadline := some (.answer, 65) } live)).symm.trans h
  cases h
  decide

/-! ## Witnesses: the index bus -/

/-- A well-formed ASK, its cells and a frame that is none. -/
theorem test_witness_FramesReadBackAsSent :
    (⟨1, 2, 0x125, .ask (keyNo 0)⟩ : Frame).Proper ∧ (⟨1, 15, 0, .beacon true 4⟩ : Frame).Proper ∧
    ¬(⟨1, 2, 0x125, .commit (keyNo 0) 0⟩ : Frame).Proper ∧ parseFrame [] = none := by
  refine ⟨?_, ?_, ?_, rfl⟩ <;> simp [Frame.Proper]

/-- Station 2's VERDICT of precedence 2 against 4 and 33, station 4's against 2 and 33 (section 7.10), and equal values. -/
theorem test_witness_LowestPrecedenceWinsTheLine :
    live.DeadlinesActed ∧ ({ live with bus := twoFrames } : Station).DeadlinesActed ∧
    let x : TxFrame := ⟨⟨2, 1, 0x125, .answer (.verdict .write)⟩, .index, 0, .waiting⟩
    let s := { live with bus := { live.bus with tx := [x] } }
    (s.bus.tx = x :: [] ∧ s.control.state = .running ∧ s.bus.yield = false ∧ 2 ≤ 2 ∧ ∀ y ∈ s.bus.tx, y.mark = .waiting) ∧
    (∀ r ∈ [(4 : BitVec 6), 33, 2], x.frame.value ≤ r.toNat) ∧
    ((1 : BitVec 6) ∈ [(33 : BitVec 6), 1] ∧ (∀ r' ∈ [(33 : BitVec 6), 1], (1 : BitVec 6).toNat ≤ r'.toNat) ∧
      (1 : BitVec 6).toNat < x.frame.value) ∧
    (live.bus.tx = [] ∧ idle.control.state ≠ .running ∧ { live.bus with yield := true }.yield = true ∧ 1 < 2 ∧
      ∃ y ∈ twoFrames.tx, y.mark ≠ .waiting) ∧ 8 ≤ 8 ∧ 7 < 8 := by
  exact ⟨rfl, rfl, ⟨rfl, rfl, rfl, by decide, by decide⟩, by decide, ⟨by decide, by decide, by decide⟩,
    ⟨rfl, by decide, rfl, by decide, by decide⟩, by decide, by decide⟩

/-- An ASK on the line with this many failed attempts and mark. -/
def onLine (n : Nat) (mark : LineMark) : TxFrame := ⟨⟨2, 1, 0x100, .ask (keyNo 0)⟩, .exchange, n, mark⟩

/-- A beacon on the line. -/
def beaconOnLine : TxFrame := ⟨⟨2, 15, 0, .beacon true 4⟩, .roster, 0, .onLine⟩

/-- Acknowledged and not; a beacon not acknowledged; a mismatch in the second cell of the type field, sent recessive. -/
theorem test_witness_AttemptsEndByRule :
    ({ live with bus := { live.bus with tx := [onLine 3 .onLine] } } : Station).DeadlinesActed ∧
    ((∀ y ∈ ([] : List TxFrame) ++ [⟨⟨2, 15, 0, .beacon true 4⟩, .roster, 0, .waiting⟩], y.mark = .waiting) ∧
      (onLine 3 .onLine).mark ≠ .waiting ∧ (onLine 0 .onLinePurged).mark = .onLinePurged ∧ (onLine 2 .onLine).attempts < 3 ∧
      3 ≤ (onLine 3 .onLine).attempts) ∧
    (∀ x : TxFrame, (∀ k, ¬(x.frame.cells[6 + k]? = some true ∧ ([] : List Bool)[k]? = some false))) ∧
    ((true = true ↔ true = true ∨ (onLine 0 .onLine).frame.dest = 15) ∧
      (true = true ↔ false = true ∨ beaconOnLine.frame.dest = 15) ∧
      (false = true ↔ false = true ∨ (onLine 0 .onLine).frame.dest = 15)) ∧
    (∃ k, ((onLine 0 .onLine).frame.cells[6 + k]? = some true ∧ [false, false][k]? = some false) ∧
      ∀ j, j < k → ¬((onLine 0 .onLine).frame.cells[6 + j]? = some true ∧ [false, false][j]? = some false)) := by
  refine ⟨rfl, by decide, fun x k h => (nomatch h.2), by decide, 1, by decide +kernel, fun j hj => ?_⟩
  have : j = 0 := by omega
  subst this
  decide +kernel

/-- Hearing and not; the cells of a good frame of station 1 to station 2, read back as such, and cells of no frame; 15 and 16
frames in the inbound queue; senders of the own number and not below the cluster size. -/
theorem test_witness_ReceivedFramesPlaced :
    live.DeadlinesActed ∧ idle.DeadlinesActed ∧
    (live.control.state = .running ∧ 2 ≤ 2 ∧ ∀ y ∈ live.bus.tx, y.mark = .waiting) ∧
    (¬(live.control.state = .running ∧ 2 ≤ 1 ∧ ∀ y ∈ live.bus.tx, y.mark = .waiting) ∧ idle.control.state ≠ .running) ∧
    parseFrame [] = none ∧
    (∀ p ∈ [(1 : StationNo), 2, 3, 4], parseFrame (Frame.cells ⟨p, 15, 0, .beacon true 4⟩) = some ⟨p, 15, 0, .beacon true 4⟩) ∧
    parseFrame (Frame.cells ⟨1, 2, 0x125, .answer (.verdict .write)⟩) = some ⟨1, 2, 0x125, .answer (.verdict .write)⟩ ∧
    parseFrame (Frame.cells ⟨1, 3, 0x125, .answer (.verdict .write)⟩) = some ⟨1, 3, 0x125, .answer (.verdict .write)⟩ ∧
    (live.control.straps.clusterSize.toNat ≤ (4 : StationNo).toNat ∧ (3 : StationNo).toNat < live.control.straps.clusterSize.toNat ∧
      (2 : StationNo) = live.control.straps.number ∧ (1 : StationNo) ≠ live.control.straps.number) ∧
    (16 ≤ (List.replicate 16 (0 : Nat)).length ∧ live.bus.inbound.length < 16) := by
  refine ⟨rfl, rfl, by decide, by decide, rfl, by decide +kernel, by decide +kernel, by decide +kernel, by decide, by decide⟩

/-! ## Witnesses: the roster -/

theorem first_change {s : Station} (h1 : s.roster.ready = none) (h2 : s.roster.held = none) (h3 : s.roster.conflictOwed = none)
    (h4 : s.roster.next = 0) (h5 : s.roster.peers[(0 : Fin 15)].heard = true ∨ s.roster.peers[(0 : Fin 15)].silence = true) :
    s.TakesChange 0 :=
  ⟨h1, h2, h3, h5, fun m h => by rw [h4] at h; exact absurd h (Nat.not_lt_zero _)⟩

/-- A station with this record for peer 0. -/
def withPeer0 (r : Peer) : Station := { live with roster := { live.roster with peers := live.roster.peers.set 0 r } }

theorem live_entries : live.EntriesSound := fun i => by rw [live_entry]; exact freeEntry_sound

theorem test_witness_RosterChangesInTurn :
    (withPeer0 { heard := true }).DeadlinesActed ∧ (withPeer0 { state := .serving, silence := true }).DeadlinesActed ∧
    ((withPeer0 { heard := true }).TakesChange 0 ∧ (withPeer0 { heard := true }).roster.peers[(0 : Fin 15)].heard = true ∧
      (withPeer0 { state := .silent, heard := true }).TakesChange 0) ∧
    ((withPeer0 { state := .serving, silence := true }).TakesChange 0 ∧
      (withPeer0 { state := .serving, silence := true }).roster.peers[(0 : Fin 15)].heard = false ∧
      (withPeer0 { state := .serving, silence := true }).EntriesSound) ∧
    (live.roster.ready = none ∧ live.roster.held = none ∧ live.roster.conflictOwed = none ∧
      { live.roster with conflictOwed := some .ownNumber }.conflictOwed = some .ownNumber ∧
      { live.roster with conflictOwed := some (.clusterSize 1 5) }.conflictOwed = some (.clusterSize 1 5)) :=
  ⟨rfl, rfl, ⟨first_change rfl rfl rfl rfl (.inl rfl), rfl, first_change rfl rfl rfl rfl (.inl rfl)⟩,
    ⟨first_change rfl rfl rfl rfl (.inr rfl), rfl, live_entries⟩, rfl, rfl, rfl, rfl, rfl⟩

/-- A beacon of station 0 at the inbound head, with this record for peer 0. -/
def beaconHeard (r : Peer) (fresh : Bool) (size : BitVec 4) : Station :=
  { withPeer0 r with bus := { live.bus with inbound := [⟨0, 15, 0, .beacon fresh size⟩] } }

theorem takes_beacon (r : Peer) (h : r.heard = false ∧ r.silence = false) (fresh : Bool) (size : BitVec 4) :
    (beaconHeard r fresh size).TakesBeacon ⟨0, 15, 0, .beacon fresh size⟩ [] fresh size := by
  refine ⟨rfl, rfl, rfl, fun n => ?_, rfl, rfl⟩
  by_cases hn : n = 0
  · subst hn; exact h
  · have : (0 : Nat) ≠ n.val := fun e => hn (Fin.ext e.symm)
    simp [beaconHeard, withPeer0, live, idle, Station.reset, Roster.reset, this]

/-- Another cluster size; a peer not SERVING; a first beacon; a later one with and without the fresh marker. -/
theorem test_witness_BeaconsTakenByTheRoster :
    (beaconHeard {} true 4).DeadlinesActed ∧
    (∀ r ∈ [({} : Peer), { state := .serving }, { state := .serving, beaconSeen := true }], ∀ fresh size,
      (beaconHeard r fresh size).TakesBeacon ⟨0, 15, 0, .beacon fresh size⟩ [] fresh size ∧
      (beaconHeard r fresh size).peer 0 = r ∧ (beaconHeard r fresh size).EntriesSound) ∧
    (5 ≠ live.control.straps.clusterSize ∧ 4 = live.control.straps.clusterSize) := by
  refine ⟨rfl, fun r hr fresh size => ⟨takes_beacon r ?_ fresh size, rfl, live_entries⟩, by decide⟩
  simp at hr
  rcases hr with rfl | rfl | rfl <;> exact ⟨rfl, rfl⟩

/-! ## Witnesses: the chunker -/

theorem busy_fetches : busyLane.MayFetch (desc 0 100) :=
  ⟨by decide, ⟨[], [], rfl, by decide, by decide⟩, .inl ⟨slotIn 0 .filling, by decide, rfl⟩⟩

/-- A lane whose window holds 63 slots, none FILLING, may fetch. -/
theorem test_witness_BurstsIssuedRoundRobin :
    live.DeadlinesActed ∧ (live.withLane 0 busyLane).DeadlinesActed ∧
    { live.chunker with burst := some ⟨0, 0, 512, false⟩ }.burst ≠ none ∧ (∀ l d, ¬(live.laneAt l).MayFetch d) ∧
    (live.chunker.burst = none ∧ ((live.withLane 0 busyLane).laneAt 0).MayFetch (desc 0 100) ∧
      ∀ k : LaneNo, (k - live.chunker.pointer).val < ((0 : LaneNo) - live.chunker.pointer).val →
        ∀ d, ¬((live.withLane 0 busyLane).laneAt k).MayFetch d) ∧
    { laneOf (List.replicate 63 (slotIn 0 .lookup)) with segments := [desc 0 0] }.MayFetch (desc 0 0) ∧
    (2 ^ 64 < 2 ^ 64 - 511 + 512 ∧ 2 ^ 64 - 512 + 512 ≤ 2 ^ 64) := by
  refine ⟨rfl, rfl, by decide, fun l d h => h.1 (by rw [live_lane]), ⟨rfl, ?_, fun k h => absurd h (Nat.not_lt_zero _)⟩,
    ⟨by decide, ⟨[], [], rfl, by decide, by decide⟩, .inr (by simp [laneOf])⟩, by decide⟩
  rw [laneAt_withLane]; exact busy_fetches

/-- A request of two bytes with the first one there. -/
def request7 : FetchRequest := ⟨7, 0x1000, 0, [some 1, none], none⟩

theorem test_witness_ReadRequestsEndByCompletionOrTimeout :
    ({ live with fetch := ⟨true, 8, some ⟨0x1000, 2, false, [request7]⟩⟩ } : Station).DeadlinesActed ∧
    (let b : Fetch := ⟨0x1000, 2, false, [request7]⟩;
      b.requests = [] ++ request7 :: [] ∧ request7.id = 7 ∧ (∀ z ∈ ([] : List FetchRequest) ++ [], z.id ≠ 7)) ∧
    (request7.result = none ∧ [some 1, some (2 : Byte)].length = request7.data.length ∧
      ∀ k, k < request7.data.length → [some 1, some (2 : Byte)][k]? =
        if 1 ≤ request7.offset + k ∧ request7.offset + k < 1 + [(2 : Byte)].length then
          ([(2 : Byte)][request7.offset + k - 1]?).map some else request7.data[k]?) ∧
    { request7 with result := some .good }.result ≠ none ∧ (∀ b', live.fetch.burst = some b' → ∀ z ∈ b'.requests, z.id ≠ 7) := by
  refine ⟨rfl, ⟨rfl, rfl, by decide⟩, ⟨rfl, rfl, by decide⟩, by decide, fun _ h => (nomatch h)⟩

/-- A fetch of these bytes, ended good. -/
def fetched (bytes : List Byte) : Fetch := ⟨0x1000, bytes.length, false, [⟨0, 0x1000, 0, bytes.map some, some .good⟩]⟩

/-- A burst of one byte, ended good, for the lane `busyLane`. -/
def fetching : Station :=
  { live.withLane 0 busyLane with
    chunker := { live.chunker with burst := some ⟨0, 0, 1, false⟩ }
    fetch := ⟨true, 1, some (fetched [0])⟩ }

theorem fetching_lane : fetching.laneAt 0 = busyLane := laneAt_withLane live 0 busyLane

/-- Not ended; void; in error; one byte that is no cut, on a lane that drains and one that does not; a cut at the 1,024th byte
of a chunk whose other bytes and hash are 0 (A is 4,096). -/
theorem test_witness_BurstBytesConsumedUpToTheCut :
    (let f : Fetch := ⟨0x1000, 2, false, [request7]⟩; f.rejected = false ∧ ∃ r ∈ f.requests, r.result = none) ∧
    ((fetched [1]).rejected = true ∨ ∀ r ∈ (fetched [1]).requests, r.result ≠ none) ∧
    (let f : Fetch := ⟨0x1000, 2, false, [{ request7 with result := some .timeout }]⟩;
      f.rejected = true ∨ (∀ r ∈ f.requests, r.result ≠ none) ∧ ∃ r ∈ f.requests, r.result ≠ some .good) ∧
    (∀ r ∈ (fetched [0]).requests, r.result = some .good) ∧
    (fetched [0]).requests.flatMap (·.data) = ([0] : List Byte).map some ∧
    (∃ w y x, busyLane.Consumes 0 1 w y x) ∧
    (∃ w y x, { laneOf [] with segments := [desc 0 0] }.Consumes 0 1 w y x) ∧
    (fetching.DeadlinesActed ∧ fetching.chunker.burst = some ⟨0, 0, 1, false⟩ ∧ fetching.fetch.burst = some (fetched [0]) ∧
      (fetching.laneAt 0).state ≠ .free ∧ (live.laneAt 0).state = .free) ∧
    ¬(([(0 : Byte)].take 1).foldl Context.after ⟨0, 0, [], []⟩).CutFalls 1 ∧
    (([(0 : Byte)].take 1).foldl Context.after ⟨0, 1023, [], []⟩).CutFalls 1 := by
  refine ⟨by decide, by decide, by decide, by decide, rfl,
    ⟨_, _, _, .grows [] (slotIn 0 .filling) [] (desc 0 100) [] rfl (by decide) rfl rfl rfl (by decide)⟩,
    ⟨_, _, _, .opens [] (desc 0 0) [] (by decide) rfl rfl (by decide)⟩, ⟨rfl, rfl, rfl, ?_, by rw [live_lane]⟩, ?_, ?_⟩
  · rw [fetching_lane]; decide
  · unfold Context.CutFalls; decide
  · unfold Context.CutFalls; decide

/-- A digest FIFO entry, void and not; pools 15 and 0; an owner that serves. -/
theorem test_witness_DigestsLeadToLookups :
    ({ live with chunker := { live.chunker with engine := some ⟨⟨0, 3, 1, [5]⟩, false⟩ } } : Station).DeadlinesActed ∧
    let d : DigestEntry := ⟨0, 3, 1, [5]⟩
    (live.chunker.engine = none ∧ { live.chunker with digests := [d] }.digests = d :: []) ∧
    ({ live.chunker with engine := some ⟨d, false⟩ }.engine ≠ none ∧ live.chunker.digests = []) ∧
    ({ live.chunker with engine := some ⟨d, true⟩ }.engine = some ⟨d, true⟩) ∧ d.absorbed.reverse = [5] ∧
    (((live.withLane 0 { laneOf [] with pool := 15 }).laneAt 0).pool = 15 ∧ ((live.withLane 0 (laneOf [])).laneAt 0).pool ≠ 15) ∧
    (∀ fp, { live with control := { live.control with straps := ⟨0, 1, 1, 0, 0⟩ } }.Serves (ownerOf 1 fp) ∧
      ¬{ live with control := { live.control with straps := ⟨1, 1, 1, 0, 0⟩ } }.Serves (ownerOf 1 fp)) := by
  refine ⟨rfl, ⟨rfl, rfl⟩, ⟨by decide, rfl⟩, rfl, rfl, ⟨by rw [laneAt_withLane], by rw [laneAt_withLane]; decide⟩, fun fp => ?_⟩
  have : ownerOf 1 fp = 0 := by simp [ownerOf, Nat.mod_one]
  rw [this]
  refine ⟨.inl ⟨rfl, rfl⟩, ?_⟩
  rintro (⟨h, _⟩ | ⟨_, h⟩) <;> revert h <;> decide

/-! ## One step each, from the manual's examples and rules -/

/-- The station after one command. -/
def after (c : Instr) (s : Station) : Station :=
  match exec c ⟨s, []⟩ with
  | .next t => t.station
  | .fault _ | .refused _ => s

/-- R4: branch 17 takes pool 3, branch 16 keeps pool 0. -/
theorem test_pool_set_writes_its_branch :
    (after .poolSet poolCommand).poolOf 17 = 3 ∧ (after .poolSet poolCommand).poolOf 16 = 0 := by decide
/-- Table 11.3: a warm reset keeps the pool table. -/
theorem test_warm_reset_keeps_pools : (after .warmReset (after .poolSet poolCommand)).poolOf 17 = 3 := by decide
/-- Table 11.3: a cold reset sets every branch to pool 0. -/
theorem test_cold_reset_clears_pools : (after .coldReset (after .poolSet poolCommand)).poolOf 17 = 0 := by decide
/-- R182: the straps at the release of COLD are held. -/
theorem test_cold_release_holds_straps :
    (after (.coldRelease 3 5 2 4 1) (after .coldReset live)).control.straps = ⟨3, 5, 2, 4, 1⟩ := by decide
/-- R185: the first START after a cold reset scrubs. -/
theorem test_first_start_scrubs :
    (after .start (withHead 3 0 [] idle)).control.state = .scrub ∧
      (after .start (withHead 3 0 [] idle)).index.scrub = some 0 := by decide
/-- R28, R186: after bucket 524,287 the station is RUNNING with STARTED ready and a beacon queued. -/
theorem test_scrub_end_enters_running :
    let s := after .scrubWriteDone { scrubbing with index := { scrubbing.index with scrub := some 524287 } }
    s.control.state = .running ∧ s.control.ready = some (.started true 2 4) ∧ s.bus.tx.length = 1 := by decide
/-- R169: a count of 31 copies all sixteen staging words; 32 entries overrun. -/
theorem test_push_of_31_arguments : ((after (.commandWordWrite 15 0x1F0B) live).port.fifo.map (·.args.length)) = [16] := by
  decide
theorem test_header_at_a_full_fifo : (after (.commandWordWrite 15 4) (withFifo 32)).port.overrun = true := by decide
/-- R171, R173: code 14 is no command: CMD_ERROR with its code and error 1. -/
theorem test_unknown_command_report :
    ((after .unknownCommand (withHead 14 0 [] idle)).port.cmdReady.map Report.words) = some [0x00010010, 0x0000010E] := by
  decide
/-- Table 10.5: threshold 1, one report word held, 32 command entries free, RUNNING, request line asserted. -/
theorem test_status_word_fields :
    (after (.statusWordRead 15) { live with port := { live.port with reports := [7] } }).port.readData = 0x02200120 := by decide
/-- R175: the oldest word leaves; its two low bytes were asked for. -/
theorem test_report_word_read :
    let s := after (.reportWordRead 3) { live with port := { live.port with reports := [0xAABBCCDD, 7] } }
    s.port.readData = 0xCCDD ∧ s.port.reports = [7] := by decide
/-- R118: OPEN of stream 9 on branch 17 owes OPENED. -/
theorem test_open_owes_opened :
    let x := (after .openLane (withHead 5 2 [0x00110000, 9] live)).laneAt 0
    x.state = .openLane ∧ x.record.stream = 9 ∧ x.record.branch = 17 ∧ x.openedOwed = true := by decide
/-- R114: a second SEGMENT of 2,048 bytes ends 4,096 bytes on. -/
theorem test_segment_end_offset :
    ((after .segment (withHead 6 4 [0, 0, 0, 2048] (live.withLane 0 { laneOf [] with segments := [desc 0 0] }))).laneAt
      0).segments.map (·.endOffset) = [2048, 4096] := by decide
/-- R124: a descriptor whose end the release point has reached is done, one byte short it is not. -/
theorem test_segment_done_at_release_point :
    ({ record := { offset := 2048 } } : Lane).descriptorDone (desc 0 2048) = true ∧
      ({ record := { offset := 2047 } } : Lane).descriptorDone (desc 0 2048) = false := by decide
/-- Section 4.11: VERDICT WRITE to the ASKING entry makes entry and slot STORING. -/
theorem test_verdict_write_stores :
    let s := after .inboundDispatch (answered (.verdict .write) (withEntry0 askEntry (live.withLane 0 (laneOf [slotIn 3 .asking]))))
    (s.entry 0).state = .storing ∧ (s.laneAt 0).window = [slotIn 3 (.storing none true)] := by decide
/-- R67: an answer to a FREE entry is a late frame. -/
theorem test_late_frame_counted :
    (after .inboundDispatch (answered (.verdict .write) live)).counter .lateFrames = 1 := by decide
/-- R73: at attempt 1 of 3 the ASK is PENDING again at attempt 2. -/
theorem test_answer_deadline_resends :
    let e := (after (.answerDeadline 0) (atTick64 (.entry 0) (withEntry0
      { askEntry with request := some (.ask, .acked), deadline := some (.answer, 64) } live))).entry 0
    e.attempts = 2 ∧ e.request = some (.ask, .pending) := by decide
/-- R64, R70: the first grant of an index has round 1. -/
theorem test_first_grant_round :
    (after .tagGrant { live with exchange := { live.exchange with waitQueue := [.lookup 0 3 (keyNo 0) 2] } }).entry 0 =
      { round := 1, state := .asking, owner := 2, binding := some ⟨0, 3⟩, request := some (.ask, .pending), attempts := 1 } := by
  decide
/-- R45, R47: the first ASK for a key creates its claim and answers WRITE. -/
theorem test_ask_of_an_absent_key :
    let d := decideAsk ⟨1, 9⟩ (keyNo 0) ⟨emptyPlaces, false, live⟩
    d.answers = [⟨⟨1, 9⟩, .verdict .write⟩] ∧ d.changed = false ∧
      d.station.index.claims[0] = some ⟨keyNo 0, 0, ⟨1, 9⟩, 64, none, []⟩ := by decide +kernel
/-- R49: a COMMIT by the writer of a claim with two waiters installs count 3 and tells both. -/
theorem test_commit_counts_waiters :
    let d := decideCommit ⟨1, 0⟩ (keyNo 0) 5 ⟨emptyPlaces, false, withClaim0 (claimWith 2) live⟩
    d.places[0] = ⟨true, 0, 0, 5, 3⟩ ∧ d.answers =
      [⟨⟨1, 0⟩, .commitReply .indexed⟩, ⟨⟨1, 1⟩, .notice (.known 5)⟩, ⟨⟨1, 2⟩, .notice (.known 5)⟩] ∧
      d.station.index.claims[0] = none := by decide +kernel
/-- R19: counts 1, 2 and 65,535 give RETIRED, COUNTED and PINNED. -/
theorem test_release_by_count :
    [(1 : BitVec 16), 2, 65535].map (fun c => (releaseEntry (keyNo 0) 5 (places 1 c)).2.2) = [.retired, .counted, .pinned] := by
  decide +kernel
/-- R58: the lost writer's claim passes to the waiter of another station. -/
theorem test_peer_lost_promotes :
    let c : Claim := { claimWith 1 with waiters := [⟨1, 1⟩, ⟨3, 4⟩] }
    let s := after .peerLost (withItem (.peerLost 1) (withClaim0 c live))
    s.index.claims[0] = some { c with writer := ⟨3, 4⟩, waiters := [] } ∧ s.index.answers = [⟨⟨3, 4⟩, .notice .write⟩] := by
  decide +kernel
/-- R155: a good frame of an ABSENT peer sets its heard marker, and PEER_JOIN makes it SERVING with PEER JOINED. -/
theorem test_heard_peer_joins :
    let s := after .peerJoin (after (.frameReceived 2 (Frame.cells ⟨1, 15, 0, .beacon true 4⟩)) live)
    (s.peer 1).state = .serving ∧ s.roster.ready = some (.peer .joined 1) := by decide +kernel
/-- R147: a frame addressed to the station is acknowledged and placed. -/
theorem test_frame_acknowledged :
    let s := after (.frameReceived 2 (Frame.cells ⟨1, 2, 0x125, .answer (.verdict .write)⟩)) live
    s.bus.ackDriven = true ∧ s.bus.inbound = [⟨1, 2, 0x125, .answer (.verdict .write)⟩] := by decide +kernel
/-- R144: the fourth failed attempt fails the frame. -/
theorem test_fourth_attempt_fails :
    let s := after (.attemptEnd [] false) { live with bus := { live.bus with tx := [onLine 3 .onLine] } }
    s.bus.tx = [] ∧ s.counter .sendFailures = 1 ∧ s.bus.yield = true := by decide +kernel
/-- R179: 1,024 bytes from 100 bytes below a 4 KiB boundary are read as 100, 512 and 412. -/
theorem test_split_at_page_boundary :
    (splitBurst 1024 0 (0x1F9C : BitVec 64) 0 1024).map (fun r => (r.address.toNat, r.data.length)) =
      [(0x1F9C, 100), (0x2000, 512), (0x2200, 412)] := by decide +kernel
/-- R164, R165: a lease deadline reached at this advance is acted on before the next command, whichever that is. -/
theorem test_due_marker_set_before_next_command :
    (after (.statusWordRead 15) (atTick64 (.claim 0) (withClaim0 (claimWith 1) live))).index.claims[(0 : ClaimPos)] =
      some { claimWith 1 with due := some 64 } := by decide
/-- R151: a frame that was on the line when the station entered RUNNING follows no idle cell that the station has read since,
and is not received, whatever its cells. -/
theorem test_frame_at_entry_not_received : ∀ cells, after (.frameReceived 0 cells) live = live := fun _ => rfl
/-- R98: one byte 5 from a fresh context leaves hash 5, a second byte 7 gives 5 × 15,133 + 7. -/
theorem test_hash_of_two_bytes : ((({} : Context).feed 5).feed 7).hash = 75672 := by decide
/-- R99 with A = 2,048: hash 0 cuts at position 512, not at 511; position 8,192 cuts whatever the hash. -/
theorem test_cut_positions :
    ({ n := 511 } : Context).cuts 2048 = false ∧ ({ n := 512 } : Context).cuts 2048 = true ∧
      ({ n := 8192, hash := 1 } : Context).cuts 2048 = true := by decide
/-- Assumption 4: on an empty queue the divider advances. -/
theorem test_empty_queue_is_a_clock_period : ∃ t, step ⟨live, []⟩ = .next t ∧ t.station.clock.divider = 1 := ⟨_, rfl, rfl⟩

end Sys2Proof.Tests
end

section
namespace Sys2Proof.Machine

/-! ### One step: the deadlines acted on, then one command or one period of the clock -/

/-- A command that is the row of a deadline: it acts on that deadline and on no other first. -/
def Instr.isDeadlineRow : Instr → Bool
  | .leaseDeadline _ | .answerDeadline _ | .holdDeadline _ | .orphanHoldDeadline _ | .silenceDeadline _ | .beaconDue =>
    true
  | _ => false

theorem Station.settled_acted (s : Station) : s.settled.DeadlinesActed := by
  simp [Station.DeadlinesActed]

theorem runEvent_settled (f : Station → Station) (s : State) :
    runEvent f s = runEvent f { s with station := s.station.settled } := by simp

/-- Every other command sees the station only with its deadlines acted on (assumption 5). -/
theorem exec_settled {c : Instr} (hc : Instr.isDeadlineRow c = false) (s : State) :
    exec c s = exec c { s with station := s.station.settled } := by
  cases c with
  | leaseDeadline | answerDeadline | holdDeadline | orphanHoldDeadline | silenceDeadline | beaconDue => cases hc
  | _ => dsimp only [exec]; exact runEvent_settled _ s

/-- The row of a deadline leaves the station alone, or takes the deadline off the list and acts on it. -/
theorem Station.takeEntryDeadline_cases (sort : DeadlineSort) (i : EntryIndex) (s : Station) :
    s.takeEntryDeadline sort i = s ∨ .entry i ∈ s.clock.reached ∧
      ∃ ds, s.takeEntryDeadline sort i = ({ s with clock.reached := ds } : Station).actDeadline (.entry i) := by
  unfold Station.takeEntryDeadline
  split
  · rename_i hr
    refine (s.takeDeadline_cases (.entry i) (Station.expireEntry sort i)).imp_right fun ⟨hmem, h⟩ => ?_
    refine ⟨hmem, s.clock.reached.erase (.entry i), h.trans ?_⟩
    unfold Entry.deadlineReached at hr
    cases hd : (s.entry i).deadline with
    | none => simp [hd] at hr
    | some p =>
      obtain ⟨rfl, -⟩ : p.1 = sort ∧ _ := by simpa [hd] using hr
      change _ = Station.entryExpired i _
      unfold Station.entryExpired
      change _ = match (s.entry i).deadline with
        | some (sort, _) => _
        | none => _
      rw [hd]
  · exact .inl rfl

theorem exec_deadlineRow {c : Instr} (hc : Instr.isDeadlineRow c = true) {s t : State} (h : exec c s = .next t) :
    t.station = s.station ∨ ∃ d ∈ s.station.clock.reached, ∃ ds,
      t.station = ({ s.station with clock.reached := ds } : Station).actDeadline d := by
  cases c with
  | leaseDeadline p =>
    cases h; exact (s.station.takeDeadline_cases (.claim p) _).imp_right fun ⟨hd, h⟩ => ⟨.claim p, hd, _, h⟩
  | silenceDeadline p =>
    cases h; exact (s.station.takeDeadline_cases (.peer p) _).imp_right fun ⟨hd, h⟩ => ⟨.peer p, hd, _, h⟩
  | beaconDue =>
    cases h; exact (s.station.takeDeadline_cases .beacon _).imp_right fun ⟨hd, h⟩ => ⟨.beacon, hd, _, h⟩
  | answerDeadline i => cases h; exact (s.station.takeEntryDeadline_cases .answer i).imp_right fun h => ⟨.entry i, h⟩
  | holdDeadline i => cases h; exact (s.station.takeEntryDeadline_cases .hold i).imp_right fun h => ⟨.entry i, h⟩
  | orphanHoldDeadline i =>
    cases h; exact (s.station.takeEntryDeadline_cases .orphanHold i).imp_right fun h => ⟨.entry i, h⟩
  | _ => cases hc

/-- The action on each reached deadline keeps a property, whatever is then left of the list. -/
def KeptByDeadlines (P : Station → Prop) : Prop :=
  ∀ (s : Station) (d : Deadline) (ds : List Deadline), d ∈ s.clock.reached → P s →
    P (({ s with clock.reached := ds } : Station).actDeadline d)

/-- Such a property holds once all of them are acted on. -/
theorem KeptByDeadlines.settled {P : Station → Prop} (act : KeptByDeadlines P) {s : Station} (h : P s) : P s.settled := by
  have key : ∀ (ds : List Deadline) (u : Station), u.clock.reached = ds → P u → P (u.settleAll ds) := fun ds => by
    induction ds with
    | nil => exact fun _ _ hu => hu
    | cons d ds ih => exact fun u he hu => ih _ (by simp) (act u d ds (by simp [he]) hu)
  exact key _ s rfl h

/-- What a step takes from `P` to `Q`: the action on a deadline keeps `P`, and from a station of `P` with every deadline
acted on a command, or a period of the reference clock, leads to `Q`. -/
theorem step_keeps {P Q : Station → Prop} (weaken : ∀ s, P s → Q s) (act : KeptByDeadlines P)
    (idle : ∀ s : Station, s.DeadlinesActed → P s → Q s.refclkPeriod)
    (command : ∀ (c : Instr) (s t : State), Instr.isDeadlineRow c = false → s.station.DeadlinesActed → P s.station →
      exec c s = .next t → Q t.station)
    {s t : State} (hs : P s.station) (h : step s = .next t) : Q t.station := by
  have hp := act.settled hs
  obtain ⟨x, pending⟩ := s
  cases pending with
  | nil => cases h; exact idle _ x.settled_acted hp
  | cons c rest =>
    cases hc : Instr.isDeadlineRow c with
    | false => exact command c _ t hc x.settled_acted hp ((exec_settled hc _).symm.trans h)
    | true =>
      rcases exec_deadlineRow hc h with e | ⟨d, hd, ds, e⟩ <;> rw [e]
      · exact weaken _ hs
      · exact weaken _ (act _ d ds hd hs)

end Sys2Proof.Machine
end

section
namespace Sys2Proof.Machine

/-! ### Places of a bucket: finding, counting, setting one -/

@[simp] theorem Vector.get_set_fin {α : Type} {n : Nat} (v : Vector α n) (i j : Fin n) (x : α) :
    (v.set i x)[j] = if i = j then x else v[j] := by
  simp [Vector.getElem_set, Fin.ext_iff]

theorem findPlace_eq_none {k : Key} {ps : Vector Place 8} :
    findPlace k ps = none ↔ ∀ i : Fin 8, ps[i].used = true → ps[i].key ≠ k := by
  simp [findPlace, lowestFind_eq_none]

theorem findPlace_has {k : Key} {ps : Vector Place 8} {i : Fin 8} (h : findPlace k ps = some i) :
    ps[i].used = true ∧ ps[i].key = k := by
  simpa [findPlace] using lowestFind_has h

theorem entryCount_le (ps : Vector Place 8) : entryCount ps ≤ 8 := by
  simpa [entryCount] using List.countP_le_length (p := (·.used)) (l := ps.toList)

theorem entryCount_set (ps : Vector Place 8) (i : Fin 8) (x : Place) :
    entryCount (ps.set i x) = entryCount ps - (if ps[i].used then 1 else 0) + (if x.used then 1 else 0) := by
  simp [entryCount, Vector.toList_set, List.countP_set]

theorem entryCount_pos {ps : Vector Place 8} {i : Fin 8} (h : ps[i].used = true) : 0 < entryCount ps :=
  List.countP_pos_iff.2 ⟨ps[i], by simp, h⟩

/-- The entries of `qs` stand under keys of entries of `ps`, and are no more than those. -/
structure PlacesWithin (qs ps : Vector Place 8) : Prop where
  keys : ∀ k, findPlace k ps = none → findPlace k qs = none
  count : entryCount qs ≤ entryCount ps

theorem PlacesWithin.refl (ps : Vector Place 8) : PlacesWithin ps ps := ⟨fun _ h => h, Nat.le_refl _⟩

theorem placesWithin_empty (ps : Vector Place 8) : PlacesWithin emptyPlaces ps where
  keys k _ := findPlace_eq_none.2 fun i => by simp [emptyPlaces]
  count := by simp [entryCount, emptyPlaces]

/-- A place set to an entry of its own key, or emptied. -/
theorem placesWithin_set {ps : Vector Place 8} {i : Fin 8} {x : Place} (hu : ps[i].used = true)
    (hx : x.used = true → x.key = ps[i].key) : PlacesWithin (ps.set i x) ps where
  keys k h := by
    rw [findPlace_eq_none] at h ⊢
    intro j
    rw [Vector.get_set_fin]
    split
    · exact fun hxu => hx hxu ▸ h i hu
    · exact h j
  count := by
    have := entryCount_pos hu
    rw [entryCount_set, if_pos hu]
    split <;> omega

theorem raiseCount_within {ps : Vector Place 8} {i : Fin 8} (hu : ps[i].used = true) :
    PlacesWithin (raiseCount i ps).2 ps := by
  unfold raiseCount
  split
  · exact .refl ps
  · exact placesWithin_set hu fun _ => rfl

theorem raiseCount_unchanged {ps : Vector Place 8} {i : Fin 8} (h : (raiseCount i ps).1 = false) :
    (raiseCount i ps).2 = ps := by
  unfold raiseCount at h ⊢
  split at h
  · rw [if_pos ‹_›]
  · cases h

theorem releaseEntry_within (key : Key) (locator : Locator) (ps : Vector Place 8) :
    PlacesWithin (releaseEntry key locator ps).1 ps := by
  unfold releaseEntry
  split
  · rename_i i h
    have hu := (findPlace_has h).1
    split
    · exact .refl ps
    split
    · exact .refl ps
    split
    · exact placesWithin_set hu fun hx => by cases hx
    · exact placesWithin_set hu fun _ => rfl
  · exact .refl ps

theorem releaseEntry_unchanged {key : Key} {locator : Locator} {ps : Vector Place 8}
    (h : (releaseEntry key locator ps).2.1 = false) : (releaseEntry key locator ps).1 = ps := by
  unfold releaseEntry at h ⊢
  split
  · split
    · rfl
    split
    · rfl
    split <;> simp_all
  · rfl

/-- The places after an install: unchanged, or an unused place set to the new entry. -/
theorem installPlace_cases (key : Key) (locator : Locator) (count : BitVec 16) (ps : Vector Place 8) :
    installPlace key locator count ps = ps ∨ ∃ i : Fin 8, ps[i].used = false ∧
      installPlace key locator count ps = ps.set i ⟨true, key.pool, key.fp, locator, count⟩ := by
  unfold installPlace
  split
  · rename_i i h
    exact .inr ⟨i, by simpa [emptyPlace] using lowestFind_has h, rfl⟩
  · exact .inl rfl

theorem findPlace_installPlace {k key : Key} {locator : Locator} {count : BitVec 16} {ps : Vector Place 8}
    (hk : key ≠ k) (h : findPlace k ps = none) : findPlace k (installPlace key locator count ps) = none := by
  rcases installPlace_cases key locator count ps with e | ⟨i, -, e⟩ <;> rw [e]
  · exact h
  · rw [findPlace_eq_none] at h ⊢
    intro j
    rw [Vector.get_set_fin]
    split
    · exact fun _ => hk
    · exact h j

theorem entryCount_installPlace_le (key : Key) (locator : Locator) (count : BitVec 16) (ps : Vector Place 8) :
    entryCount (installPlace key locator count ps) ≤ entryCount ps + 1 := by
  rcases installPlace_cases key locator count ps with e | ⟨i, -, e⟩ <;> rw [e]
  · omega
  · simp [entryCount_set]

/-! ### The claim table against the places of the buckets (R35 to R37) -/

/-- A claim is recorded against a bucket. -/
def claimAgainst (b : Nat) : Option Claim → Bool
  | some c => c.bucket == b
  | none => false

/-- How many claims of a claim table are recorded against a bucket. -/
def claimCount (b : Nat) (claims : Vector (Option Claim) 128) : Nat := claims.toList.countP (claimAgainst b)

/-- A waiter list within its bounds (R35). -/
def Claim.WaitersSound (c : Claim) : Prop := c.waiters.length ≤ 6 ∧ c.waiters.Nodup ∧ c.writer ∉ c.waiters

/-- `Station.ClaimsSound`, said of a claim table and the places that stand for each bucket. -/
structure ClaimsFit (claims : Vector (Option Claim) 128) (places : Nat → Vector Place 8) : Prop where
  waiters : ∀ (p : ClaimPos) (c : Claim), claims[p] = some c → c.WaitersSound
  filed : ∀ (p : ClaimPos) (c : Claim), claims[p] = some c → c.bucket = bucketIndex c.key ∧ c.key.pool ≠ 15
  once : ∀ (p q : ClaimPos) (c d : Claim), claims[p] = some c → claims[q] = some d → c.key = d.key → p = q
  apart : ∀ (p : ClaimPos) (c : Claim), claims[p] = some c → findPlace c.key (places c.bucket) = none
  reserve : ∀ b, entryCount (places b) + claimCount b claims ≤ 8

theorem Station.claimsSound_iff (s : Station) : s.ClaimsSound ↔ ClaimsFit s.index.claims s.placesOf :=
  ⟨fun ⟨a, b, c, d, e⟩ => ⟨a, b, c, d, e⟩, fun ⟨a, b, c, d, e⟩ => ⟨a, b, c, d, e⟩⟩

section ClaimTable
variable {claims : Vector (Option Claim) 128} {places : Nat → Vector Place 8} {p : ClaimPos}

theorem claimCount_set (b : Nat) (claims : Vector (Option Claim) 128) (p : ClaimPos) (x : Option Claim) :
    claimCount b (claims.set p x) =
      claimCount b claims - (if claimAgainst b claims[p] then 1 else 0) + (if claimAgainst b x then 1 else 0) := by
  simp [claimCount, Vector.toList_set, List.countP_set]

theorem claimCount_pos {b : Nat} (h : claimAgainst b claims[p] = true) : 0 < claimCount b claims :=
  List.countP_pos_iff.2 ⟨claims[p], by simp, h⟩

/-- Fewer entries, under no new keys, leave the claim table sound. -/
theorem ClaimsFit.within {places' : Nat → Vector Place 8} (h : ClaimsFit claims places)
    (hw : ∀ b, PlacesWithin (places' b) (places b)) : ClaimsFit claims places' where
  waiters := h.waiters
  filed := h.filed
  once := h.once
  apart p c hc := (hw _).keys _ (h.apart p c hc)
  reserve b := by have := (hw b).count; have := h.reserve b; omega

/-- A claim removed. -/
theorem ClaimsFit.remove (h : ClaimsFit claims places) (p : ClaimPos) : ClaimsFit (claims.set p none) places := by
  have old : ∀ {q : ClaimPos} {c : Claim}, (claims.set p none)[q] = some c → claims[q] = some c := fun {q c} hq => by
    rw [Vector.get_set_fin] at hq
    split at hq
    · cases hq
    · exact hq
  exact {
    waiters := fun q c hq => h.waiters q c (old hq)
    filed := fun q c hq => h.filed q c (old hq)
    once := fun q r c d hq hr => h.once q r c d (old hq) (old hr)
    apart := fun q c hq => h.apart q c (old hq)
    reserve := fun b => by
      have := h.reserve b
      rw [claimCount_set]
      simp only [claimAgainst, Bool.false_eq_true, if_false]
      omega }

/-- A claim changed, but not its key and bucket. -/
theorem ClaimsFit.change {c c' : Claim} (h : ClaimsFit claims places) (hp : claims[p] = some c) (hk : c'.key = c.key)
    (hb : c'.bucket = c.bucket) (hw : c'.WaitersSound) : ClaimsFit (claims.set p (some c')) places := by
  have old : ∀ {q : ClaimPos} {d : Claim}, (claims.set p (some c'))[q] = some d →
      ∃ e, claims[q] = some e ∧ d.key = e.key ∧ d.bucket = e.bucket ∧ d.WaitersSound := fun {q d} hq => by
    rw [Vector.get_set_fin] at hq
    split at hq
    · subst p; cases hq; exact ⟨c, hp, hk, hb, hw⟩
    · exact ⟨d, hq, rfl, rfl, h.waiters q d hq⟩
  exact {
    waiters := fun q d hq => (old hq).choose_spec.2.2.2
    filed := fun q d hq => by
      obtain ⟨e, he, hk, hb, -⟩ := old hq
      rw [hk, hb]
      exact h.filed q e he
    once := fun q r d d' hq hr hkk => by
      obtain ⟨e, he, hk, -, -⟩ := old hq
      obtain ⟨e', he', hk', -, -⟩ := old hr
      exact h.once q r e e' he he' (hk ▸ hk' ▸ hkk)
    apart := fun q d hq => by
      obtain ⟨e, he, hk, hb, -⟩ := old hq
      rw [hk, hb]
      exact h.apart q e he
    reserve := fun b => by
      have hs := h.reserve b
      rw [claimCount_set, hp]
      have hpos : claimAgainst b (some c) = true → 0 < claimCount b claims := fun ha => claimCount_pos (hp.symm ▸ ha)
      have : claimAgainst b (some c') = claimAgainst b (some c) := by simp [claimAgainst, hb]
      rw [this]
      split
      · have := hpos ‹_›; omega
      · omega }

/-- A claim added for a key neither claimed nor committed, where the bucket sum leaves room (R37). -/
theorem ClaimsFit.add {c : Claim} (h : ClaimsFit claims places) (hp : claims[p] = none)
    (hw : c.WaitersSound) (hf : c.bucket = bucketIndex c.key ∧ c.key.pool ≠ 15)
    (hn : ∀ (q : ClaimPos) (d : Claim), claims[q] = some d → d.key ≠ c.key)
    (ha : findPlace c.key (places c.bucket) = none)
    (hs : entryCount (places c.bucket) + claimCount c.bucket claims < 8) : ClaimsFit (claims.set p (some c)) places := by
  have old : ∀ {q : ClaimPos} {d : Claim}, (claims.set p (some c))[q] = some d → p = q ∧ c = d ∨ claims[q] = some d :=
    fun {q d} hq => by
      rw [Vector.get_set_fin] at hq
      split at hq
      · cases hq; exact .inl ⟨‹_›, rfl⟩
      · exact .inr hq
  exact {
    waiters := fun q d hq => by
      rcases old hq with ⟨-, rfl⟩ | hq
      · exact hw
      · exact h.waiters q d hq
    filed := fun q d hq => by
      rcases old hq with ⟨-, rfl⟩ | hq
      · exact hf
      · exact h.filed q d hq
    once := fun q r d e hq hr hk => by
      rcases old hq with ⟨rfl, rfl⟩ | hq <;> rcases old hr with ⟨rfl, rfl⟩ | hr
      · rfl
      · exact absurd hk.symm (hn r e hr)
      · exact absurd hk (hn q d hq)
      · exact h.once q r d e hq hr hk
    apart := fun q d hq => by
      rcases old hq with ⟨-, rfl⟩ | hq
      · exact ha
      · exact h.apart q d hq
    reserve := fun b => by
      have := h.reserve b
      rw [claimCount_set, hp]
      by_cases hb : c.bucket = b
      · subst hb; simp only [claimAgainst, beq_self_eq_true, if_true, Bool.false_eq_true, if_false]; omega
      · simp only [claimAgainst, beq_eq_false_iff_ne.2 hb, Bool.false_eq_true, if_false]; omega }

/-- An entry installed for a key that is not claimed, where the bucket sum leaves room (R37). -/
theorem ClaimsFit.install {key : Key} {locator : Locator} {count : BitVec 16} (h : ClaimsFit claims places)
    (hn : ∀ (q : ClaimPos) (d : Claim), claims[q] = some d → d.key ≠ key)
    (hs : entryCount (places (bucketIndex key)) + claimCount (bucketIndex key) claims < 8) :
    ClaimsFit claims (Function.update places (bucketIndex key)
      (installPlace key locator count (places (bucketIndex key)))) where
  waiters := h.waiters
  filed := h.filed
  once := h.once
  apart q d hq := by
    have := h.apart q d hq
    by_cases hb : d.bucket = bucketIndex key
    · rw [hb] at this ⊢
      rw [Function.update_self]
      exact findPlace_installPlace (hn q d hq).symm this
    · rwa [Function.update_of_ne hb]
  reserve b := by
    by_cases hb : b = bucketIndex key
    · subst hb
      have := entryCount_installPlace_le key locator count (places (bucketIndex key))
      rw [Function.update_self]; omega
    · rw [Function.update_of_ne hb]; exact h.reserve b

/-- An empty claim table is sound whatever stands in the buckets. -/
theorem claimsFit_empty (places : Nat → Vector Place 8) : ClaimsFit (Vector.replicate 128 none) places where
  waiters := by simp
  filed := by simp
  once := by simp
  apart := by simp
  reserve b := by
    have hc : claimCount b (Vector.replicate 128 none) = 0 := by
      rw [claimCount, Vector.toList_replicate, List.countP_replicate]; rfl
    rw [hc]
    exact entryCount_le (places b)

end ClaimTable

end Sys2Proof.Machine
end

section
namespace Sys2Proof.Machine

/-! ### What a bucket operation may change of the index unit -/

/-- The index unit `y` differs from `x` in claims and release records at most. -/
def IndexUnit.ClaimsOrRecords (x y : IndexUnit) : Prop := ∃ v w, y = { x with claims := v, records := w }

theorem Station.releaseClaim_index (p : ClaimPos) (c : Claim) (s : Station) :
    (s.releaseClaim p c).2.index = { s.index with claims := s.index.claims.set p (c.promoted s.clock.now) } := by
  unfold Station.releaseClaim
  cases c.promoted s.clock.now <;> rfl

theorem decideAsk_index (sender : Pair) (key : Key) (r : BucketRead) :
    r.station.index.ClaimsOrRecords (decideAsk sender key r).station.index := by
  unfold decideAsk Station.askClaimed Station.askAbsent
  dsimp only
  (repeat' split) <;> exact ⟨_, _, rfl⟩

theorem decideCommit_index (sender : Pair) (key : Key) (locator : Locator) (r : BucketRead) :
    r.station.index.ClaimsOrRecords (decideCommit sender key locator r).station.index := by
  unfold decideCommit commitCommitted commitClaimed commitAbsent
  dsimp only
  (repeat' split) <;> exact ⟨_, _, rfl⟩

theorem decideDrop_index (sender : Pair) (key : Key) (r : BucketRead) :
    r.station.index.ClaimsOrRecords (decideDrop sender key r).station.index := by
  unfold decideDrop
  dsimp only
  (repeat' split)
  · exact ⟨_, _, Station.releaseClaim_index _ _ _⟩
  all_goals exact ⟨_, _, rfl⟩

theorem decideExpiry_index (p : ClaimPos) (c : Claim) (r : BucketRead) :
    r.station.index.ClaimsOrRecords (decideExpiry p c r).station.index :=
  ⟨_, _, Station.releaseClaim_index _ _ _⟩

theorem decideRelease_index (sender : Pair) (key : Key) (locator : Locator) (r : BucketRead) :
    r.station.index.ClaimsOrRecords (decideRelease sender key locator r).station.index := by
  unfold decideRelease
  dsimp only
  (repeat' split) <;> exact ⟨_, _, rfl⟩

/-! ### Searches of the claim table -/

theorem Station.claimOf_eq_some {key : Key} {s : Station} {p : ClaimPos} (h : s.claimOf key = some p) :
    ∃ c, s.index.claims[p] = some c ∧ c.key = key := by
  have := lowestFind_has h
  split at this
  · exact ⟨_, ‹_›, by simpa using this⟩
  · cases this

theorem Station.claimOf_eq_none {key : Key} {s : Station} :
    s.claimOf key = none ↔ ∀ (p : ClaimPos) (c : Claim), s.index.claims[p] = some c → c.key ≠ key := by
  unfold Station.claimOf
  rw [lowestFind_eq_none]
  refine forall_congr' fun p => ?_
  cases s.index.claims[p] <;> simp

theorem Station.freeClaim_eq_some {s : Station} {p : ClaimPos} (h : s.freeClaim = some p) :
    s.index.claims[p] = none := by
  simpa [Station.freeClaim] using lowestFind_has h

/-! ### The decisions keep the claim table sound (R35 to R37) -/

/-- A claim passed on keeps key, bucket and a sound waiter list. -/
theorem Claim.promoted_eq_some {c c' : Claim} {now : Tick} (hw : c.WaitersSound) (h : c.promoted now = some c') :
    c'.key = c.key ∧ c'.bucket = c.bucket ∧ c'.WaitersSound := by
  obtain ⟨hlen, hnodup, -⟩ := hw
  unfold Claim.promoted at h
  split at h
  · rename_i w rest hws
    cases h
    rw [hws] at hlen hnodup
    obtain ⟨hnotin, hrest⟩ := List.nodup_cons.1 hnodup
    exact ⟨rfl, rfl, Nat.le_trans (Nat.le_succ _) hlen, hrest, hnotin⟩
  · cases h

theorem ClaimsFit.promote {claims : Vector (Option Claim) 128} {places : Nat → Vector Place 8} {p : ClaimPos}
    {c c' : Claim} (h : ClaimsFit claims places) (hp : claims[p] = some c) (hk : c'.key = c.key)
    (hb : c'.bucket = c.bucket) (hw : c'.WaitersSound) (now : Tick) :
    ClaimsFit (claims.set p (c'.promoted now)) places := by
  cases hpr : c'.promoted now with
  | none => exact h.remove p
  | some d =>
    obtain ⟨hk', hb', hw'⟩ := Claim.promoted_eq_some hw hpr
    exact h.change hp (hk'.trans hk) (hb'.trans hb) hw'

theorem Station.releaseClaim_fits {s : Station} {places : Nat → Vector Place 8} {p : ClaimPos} {c : Claim}
    (h : ClaimsFit s.index.claims places) (hp : s.index.claims[p] = some c) :
    ClaimsFit (s.releaseClaim p c).2.index.claims places := by
  rw [Station.releaseClaim_index]
  exact h.promote hp rfl rfl (h.waiters p c hp) _

theorem Station.askClaimed_fits {s : Station} {places : Nat → Vector Place 8} {p : ClaimPos} {c : Claim}
    (h : ClaimsFit s.index.claims places) (hp : s.index.claims[p] = some c) (sender : Pair) :
    ClaimsFit (s.askClaimed sender p c).2.index.claims places := by
  obtain ⟨-, hnodup, hwriter⟩ := h.waiters p c hp
  unfold Station.askClaimed
  split
  · exact h
  split
  · exact h
  split
  · rename_i hne hnotin hroom
    refine h.change hp rfl rfl ⟨?_, ?_, ?_⟩
    · simpa [Config.maxWaiters] using Nat.succ_le_of_lt hroom
    · simpa [List.nodup_append, hnodup] using fun a ha (hs : a = sender) => hnotin (hs ▸ ha)
    · simpa [hwriter] using Ne.symm hne
  · exact h

theorem Station.askAbsent_fits {s : Station} {places : Nat → Vector Place 8} {key : Key}
    (h : ClaimsFit s.index.claims places) (hpool : key.pool ≠ 15)
    (hn : ∀ (p : ClaimPos) (c : Claim), s.index.claims[p] = some c → c.key ≠ key)
    (ha : findPlace key (places (bucketIndex key)) = none) (sender : Pair) :
    ClaimsFit (s.askAbsent sender key (places (bucketIndex key))).2.index.claims places := by
  unfold Station.askAbsent
  split
  · exact h
  · rename_i p hp
    split
    · exact h
    · rename_i hs
      exact h.add (c := newClaim sender key s.clock.now) (Station.freeClaim_eq_some hp)
        ⟨by simp [newClaim], by simp [newClaim], by simp [newClaim]⟩ ⟨rfl, hpool⟩ hn ha (Nat.lt_of_not_le hs)

/-- What a decision on bucket `b` must be for the operation to keep the claim table sound: it says so where it changes the
places, and its claims fit the places it leaves. -/
structure Decision.Fits (d : Decision) (r : BucketRead) (b : Nat) (places : Nat → Vector Place 8) : Prop where
  index : r.station.index.ClaimsOrRecords d.station.index
  unchanged : d.changed = false → d.places = r.places
  fits : ClaimsFit d.station.index.claims (Function.update places b d.places)

section Decisions
variable {r : BucketRead} {b : Nat} {places : Nat → Vector Place 8}

/-- The places left alone. -/
theorem ClaimsFit.update_self {claims : Vector (Option Claim) 128} (h : ClaimsFit claims places) (hr : places b = r.places) :
    ClaimsFit claims (Function.update places b r.places) := by
  rwa [← hr, Function.update_eq_self]

/-- The places narrowed. -/
theorem ClaimsFit.update_within {claims : Vector (Option Claim) 128} {ps : Vector Place 8} (h : ClaimsFit claims places)
    (hr : places b = r.places) (hw : PlacesWithin ps r.places) : ClaimsFit claims (Function.update places b ps) := by
  refine h.within fun a => ?_
  by_cases ha : a = b
  · subst ha; rwa [Function.update_self, hr]
  · rw [Function.update_of_ne ha]; exact .refl _

theorem decideAsk_fits {sender : Pair} {key : Key} (h : ClaimsFit r.station.index.claims places)
    (hr : places (bucketIndex key) = r.places) :
    (decideAsk sender key r).Fits r (bucketIndex key) places := by
  refine ⟨decideAsk_index _ _ _, ?_, ?_⟩
  · unfold decideAsk
    dsimp only
    split
    · exact fun _ => rfl
    split
    · exact raiseCount_unchanged
    · exact fun _ => rfl
  · unfold decideAsk
    dsimp only
    split
    · exact h.update_self hr
    split
    · rename_i i hi
      exact h.update_within hr (raiseCount_within (findPlace_has hi).1)
    · rename_i hpool _ hfind
      refine ClaimsFit.update_self ?_ hr
      rw [← hr] at hfind ⊢
      split
      · rename_i p hp
        obtain ⟨c, hc, -⟩ := Station.claimOf_eq_some hp
        rw [hc]
        exact Station.askClaimed_fits h hc sender
      · rename_i hp
        exact Station.askAbsent_fits h hpool (Station.claimOf_eq_none.1 hp) hfind sender

theorem commitCommitted_fits {sender : Pair} {locator : Locator} {i : Fin 8} (h : ClaimsFit r.station.index.claims places)
    (hr : places b = r.places) (hi : r.places[i].used = true) :
    ClaimsFit (commitCommitted sender locator i r).station.index.claims
      (Function.update places b (commitCommitted sender locator i r).places) := by
  unfold commitCommitted
  split
  · exact h.update_self hr
  · exact h.update_within hr (raiseCount_within hi)

theorem commitClaimed_fits {sender : Pair} {key : Key} {locator : Locator} {p : ClaimPos} {c : Claim}
    (h : ClaimsFit r.station.index.claims places) (hr : places (bucketIndex key) = r.places)
    (hc : r.station.index.claims[p] = some c) (hk : c.key = key) :
    ClaimsFit (commitClaimed sender key locator p c r).station.index.claims
      (Function.update places (bucketIndex key) (commitClaimed sender key locator p c r).places) := by
  obtain ⟨hb, -⟩ := h.filed p c hc
  have hag : claimAgainst (bucketIndex key) r.station.index.claims[p] = true := by simp [hc, claimAgainst, hb, hk]
  unfold commitClaimed
  dsimp only
  rw [← hr]
  refine (h.remove p).install (fun q d hq hd => ?_) ?_
  · rw [Vector.get_set_fin] at hq
    split at hq
    · cases hq
    · exact absurd (h.once p q c d hc hq (hk.trans hd.symm)) ‹_›
  · have := h.reserve (bucketIndex key)
    have := claimCount_pos hag
    rw [claimCount_set, if_pos hag]
    simp only [claimAgainst, Bool.false_eq_true, if_false]
    omega

theorem commitAbsent_fits {sender : Pair} {key : Key} {locator : Locator} (h : ClaimsFit r.station.index.claims places)
    (hr : places (bucketIndex key) = r.places) (hn : r.station.claimOf key = none) :
    ClaimsFit (commitAbsent sender key locator r).station.index.claims
      (Function.update places (bucketIndex key) (commitAbsent sender key locator r).places) := by
  unfold commitAbsent
  split
  · rename_i hs
    rw [← hr] at hs ⊢
    exact h.install (Station.claimOf_eq_none.1 hn) hs
  · exact h.update_self hr

theorem decideCommit_fits {sender : Pair} {key : Key} {locator : Locator} (h : ClaimsFit r.station.index.claims places)
    (hr : places (bucketIndex key) = r.places) :
    (decideCommit sender key locator r).Fits r (bucketIndex key) places := by
  refine ⟨decideCommit_index _ _ _ _, ?_, ?_⟩
  · unfold decideCommit commitCommitted commitClaimed commitAbsent
    dsimp only
    (repeat' split)
    · exact fun _ => rfl
    · exact fun _ => rfl
    · exact raiseCount_unchanged
    · exact nofun
    · exact nofun
    · exact fun _ => rfl
    · exact nofun
    · exact fun _ => rfl
  · unfold decideCommit
    split
    · exact h.update_self hr
    split
    · exact commitCommitted_fits h hr (findPlace_has ‹_›).1
    split
    · rename_i p hp
      obtain ⟨c, hc, hk⟩ := Station.claimOf_eq_some hp
      rw [hc]
      exact commitClaimed_fits h hr hc hk
    · exact commitAbsent_fits h hr ‹_›

theorem decideDrop_fits {sender : Pair} {key : Key} (h : ClaimsFit r.station.index.claims places) (hr : places b = r.places) :
    (decideDrop sender key r).Fits r b places := by
  have stale : ClaimsFit (r.station.bump .staleDrops).index.claims (Function.update places b r.places) := h.update_self hr
  refine ⟨decideDrop_index _ _ _, fun _ => ?_, ?_⟩
  · unfold decideDrop
    dsimp only
    (repeat' split) <;> rfl
  · unfold decideDrop
    dsimp only
    split
    · split
      · split
        · exact ClaimsFit.update_self (Station.releaseClaim_fits h ‹_›) hr
        · exact stale
      · exact stale
    · exact stale

theorem decideExpiry_fits {p : ClaimPos} {c : Claim} (h : ClaimsFit r.station.index.claims places) (hr : places b = r.places)
    (hc : r.station.index.claims[p] = some c) : (decideExpiry p c r).Fits r b places :=
  ⟨decideExpiry_index _ _ _, fun _ => rfl,
    ClaimsFit.update_self (Station.releaseClaim_fits (s := r.station.bump .leaseExpiries) h hc) hr⟩

theorem decideRelease_fits {sender : Pair} {key : Key} {locator : Locator} (h : ClaimsFit r.station.index.claims places)
    (hr : places b = r.places) : (decideRelease sender key locator r).Fits r b places := by
  have hw := releaseEntry_within key locator r.places
  refine ⟨decideRelease_index _ _ _ _, ?_, ?_⟩
  · unfold decideRelease
    dsimp only
    (repeat' split)
    · exact fun _ => rfl
    all_goals exact releaseEntry_unchanged
  · unfold decideRelease
    dsimp only
    split
    · split
      · exact h.update_self hr
      · exact h.update_within hr hw
    · exact h.update_within hr hw

end Decisions
end Sys2Proof.Machine
end

section
namespace Sys2Proof.Machine

/-! ### The places that stand for a bucket -/

/-- The places of a bucket after the damage check of R22. -/
def ShardTable.checked (t : ShardTable) (b : Nat) : Vector Place 8 :=
  if (t.read b).wellFormed b then (t.read b).places else emptyPlaces

theorem Station.placesOf_eq (b : Nat) (s : Station) : s.placesOf b =
    match s.index.write with
    | some (a, k) => if a = b then k.places else s.index.table.checked b
    | none => s.index.table.checked b := rfl

theorem Station.placesOf_idle {s : Station} (h : s.index.write = none) (b : Nat) :
    s.placesOf b = s.index.table.checked b := by
  rw [Station.placesOf_eq, h]

theorem Station.placesOf_writing {s : Station} {a : Nat} {k : Bucket} (h : s.index.write = some (a, k)) (b : Nat) :
    s.placesOf b = if a = b then k.places else s.index.table.checked b := by
  rw [Station.placesOf_eq, h]

theorem Station.openBucket_places (b : Nat) (s : Station) : (s.openBucket b).places = s.index.table.checked b := by
  unfold Station.openBucket ShardTable.checked
  split <;> rfl

theorem Station.openBucket_index (b : Nat) (s : Station) :
    ∃ x, (s.openBucket b).station.index = { s.index with ready := x } := by
  unfold Station.openBucket
  split <;> exact ⟨_, rfl⟩

/-- A bucket operation that keeps the claim table sound by its decision keeps it sound as a whole. -/
theorem Station.bucketOperation_sound {s : Station} {b : Nat} {decide : BucketRead → Decision}
    (hw : s.index.write = none)
    (hd : ∀ r : BucketRead, r.station.index.claims = s.index.claims → s.placesOf b = r.places →
      (decide r).Fits r b s.placesOf) : (s.bucketOperation b decide).ClaimsSound := by
  obtain ⟨x, hx⟩ := s.openBucket_index b
  obtain ⟨⟨v, w, hi⟩, hc, hf⟩ := hd (s.openBucket b) (by rw [hx])
    (by rw [Station.openBucket_places, Station.placesOf_idle hw])
  rw [Station.claimsSound_iff]
  have hp : (s.bucketOperation b decide).placesOf = Function.update s.placesOf b (decide (s.openBucket b)).places := by
    have ht : (s.bucketOperation b decide).index.table = s.index.table := by
      change (decide (s.openBucket b)).station.index.table = _
      rw [hi, hx]
    funext a
    cases hz : ((s.openBucket b).damaged || (decide (s.openBucket b)).changed) with
    | true =>
      have hwr : (s.bucketOperation b decide).index.write = some (b, sealPlaces (decide (s.openBucket b)).places) :=
        if_pos hz
      rw [Station.placesOf_writing hwr, ht]
      split
      · subst a; rw [Function.update_self]; rfl
      · rw [Function.update_of_ne (Ne.symm ‹_›), Station.placesOf_idle hw]
    | false =>
      have hwr : (s.bucketOperation b decide).index.write = none := if_neg (by simp [hz])
      rw [Station.placesOf_idle hwr, ht, hc (Bool.or_eq_false_iff.1 hz).2, Station.openBucket_places,
        ← Station.placesOf_idle hw, ← Station.placesOf_idle hw, Function.update_eq_self]
  rw [hp]
  exact hf

/-! ### Steps that touch the claim table by no bucket operation -/

/-- The parts of the index unit that the soundness of the claim table reads. -/
def Station.shard (s : Station) : Vector (Option Claim) 128 × Option (Nat × Bucket) × ShardTable :=
  (s.index.claims, s.index.write, s.index.table)

theorem Station.ClaimsSound.of_shard {s t : Station} (h : s.ClaimsSound) (e : t.shard = s.shard) : t.ClaimsSound := by
  simp only [Station.shard, Prod.mk.injEq] at e
  obtain ⟨hc, hw, ht⟩ := e
  have hp : t.placesOf = s.placesOf := by
    funext b
    rw [Station.placesOf_eq, Station.placesOf_eq, hw, ht]
  rw [Station.claimsSound_iff] at h ⊢
  rwa [hc, hp]

theorem Station.ClaimsSound.of_index {s t : Station} (h : s.ClaimsSound) (e : t.index = s.index) : t.ClaimsSound :=
  h.of_shard (by simp [Station.shard, e])

/-- A claim table with no claim is sound whatever stands in table memory. -/
theorem Station.claimsSound_of_empty {s : Station} (h : s.index.claims = Vector.replicate 128 none) : s.ClaimsSound := by
  rw [Station.claimsSound_iff, h]
  exact claimsFit_empty _

/-- A claim's due marker set (R53). -/
theorem Station.ClaimsSound.markDue {s : Station} (h : s.ClaimsSound) (p : ClaimPos) : (s.markDue p).ClaimsSound := by
  unfold Station.markDue
  split
  · rename_i c hc
    split
    · rw [Station.claimsSound_iff] at h
      exact (Station.claimsSound_iff _).2 (h.change hc rfl rfl (h.waiters p c hc))
    · exact h
  · exact h

theorem Station.ClaimsSound.actDeadline {s : Station} (h : s.ClaimsSound) (d : Deadline) (ds : List Deadline) :
    (({ s with clock.reached := ds } : Station).actDeadline d).ClaimsSound := by
  have h' : ({ s with clock.reached := ds } : Station).ClaimsSound := h.of_index rfl
  cases d with
  | claim p => exact h'.markDue p
  | entry i => exact h'.of_index (by simp [Station.actDeadline])
  | peer p => exact h'.of_index (by simp [Station.actDeadline])
  | beacon => exact h'.of_index (by simp [Station.actDeadline])

/-- A PEER item at one position (R58): the claim keeps key and bucket, or leaves. -/
theorem Station.ClaimsSound.clearPeerAt {acc : List Answer × Station} (h : acc.2.ClaimsSound) (peer : StationNo)
    (p : ClaimPos) : (Station.clearPeerAt peer acc p).2.ClaimsSound := by
  unfold Station.clearPeerAt
  split
  · rename_i c hc
    rw [Station.claimsSound_iff] at h
    obtain ⟨hlen, hnodup, hwriter⟩ := h.waiters p c hc
    have hw : Claim.WaitersSound { c with waiters := c.waiters.filter fun w => w.station != peer } :=
      ⟨Nat.le_trans (List.length_filter_le _ _) hlen, hnodup.filter _, fun hm => hwriter (List.mem_filter.1 hm).1⟩
    dsimp only
    split
    · refine (Station.claimsSound_iff _).2 ?_
      have hpl : (acc.2.releaseClaim p { c with waiters := c.waiters.filter fun w => w.station != peer }).2.placesOf =
          acc.2.placesOf := by
        funext b
        rw [Station.placesOf_eq, Station.placesOf_eq, Station.releaseClaim_index]
      rw [hpl, Station.releaseClaim_index]
      exact h.promote (c' := { c with waiters := c.waiters.filter fun w => w.station != peer }) hc rfl rfl hw _
    · exact (Station.claimsSound_iff _).2 (h.change hc rfl rfl hw)
  · exact h

theorem Station.ClaimsSound.clearPeer {s : Station} (h : s.ClaimsSound) (peer : StationNo) :
    (s.clearPeer peer).ClaimsSound := by
  have key : ∀ (ps : List ClaimPos) (acc : List Answer × Station), acc.2.ClaimsSound →
      (ps.foldl (Station.clearPeerAt peer) acc).2.ClaimsSound := fun ps => by
    induction ps with
    | nil => exact fun _ h => h
    | cons p ps ih => exact fun acc h => ih _ (h.clearPeerAt peer p)
  unfold Station.clearPeer
  generalize List.finRange 128 = ps
  exact (key ps ([], s) h).of_shard rfl

/-- Table memory may take any bucket whose places stand already, and the write of it end. -/
theorem Station.ClaimsSound.of_within {s t : Station} (h : s.ClaimsSound) (hc : t.index.claims = s.index.claims)
    (hp : ∀ b, PlacesWithin (t.placesOf b) (s.placesOf b)) : t.ClaimsSound := by
  rw [Station.claimsSound_iff] at h ⊢
  rw [hc]
  exact h.within hp

theorem ShardTable.checked_write_other (t : ShardTable) {a b : Nat} (k : Bucket) (h : b ≠ a) :
    (t.write a k).checked b = t.checked b := by
  simp [ShardTable.checked, ShardTable.read_write_other t k h]

/-- The write-back completes (R23): the bucket's places stand in table memory, or fail the damage check there. -/
theorem Station.ClaimsSound.writeDone {s : Station} (h : s.ClaimsSound) {a : Nat} {k : Bucket}
    (hw : s.index.write = some (a, k)) :
    ({ s with index.table := s.index.table.write a k, index.write := none } : Station).ClaimsSound := by
  refine h.of_within rfl fun b => ?_
  rw [Station.placesOf_idle rfl, Station.placesOf_writing hw]
  split
  · subst b
    simp only [ShardTable.checked, ShardTable.read_write_self]
    split
    · exact .refl _
    · exact placesWithin_empty _
  · rw [ShardTable.checked_write_other _ _ (Ne.symm ‹_›)]
    exact .refl _

theorem ShardTable.checked_scrubWrite (t : ShardTable) (a b : Nat) :
    PlacesWithin ((t.scrubWrite a).checked b) (t.checked b) := by
  by_cases h : b = a
  · subst h
    have : (t.scrubWrite b).checked b = emptyPlaces := by
      simp [ShardTable.checked, emptyBucket, sealPlaces]
    rw [this]
    exact placesWithin_empty _
  · simp only [ShardTable.checked, ShardTable.read_scrubWrite_other t h]
    exact .refl _

theorem Station.scrubDone_index (b : Nat) (s : Station) :
    ∃ x, (s.scrubDone b).index = { s.index with table := s.index.table.scrubWrite b, scrub := x } := by
  unfold Station.scrubDone
  dsimp only
  split
  · exact ⟨_, rfl⟩
  · exact ⟨none, by simp⟩

/-- A scrub write completes (R28). -/
theorem Station.ClaimsSound.scrubDone {s : Station} (h : s.ClaimsSound) (b : Nat) : (s.scrubDone b).ClaimsSound := by
  obtain ⟨x, hx⟩ := s.scrubDone_index b
  refine h.of_within (by rw [hx]) fun a => ?_
  rw [Station.placesOf_eq, Station.placesOf_eq, hx]
  dsimp only
  split
  · split
    · exact .refl _
    · exact ShardTable.checked_scrubWrite _ _ _
  · exact ShardTable.checked_scrubWrite _ _ _

end Sys2Proof.Machine
end

section
namespace Sys2Proof.Machine

/-! ### Which commands touch the index unit -/

/-- The commands that may touch a field of the index unit once the deadlines are acted on. -/
def Instr.touchesIndex : Instr → Bool
  | .coldReset | .warmReset | .start | .leaseExpiry | .ask | .commit | .drop | .releaseItem | .peerLost | .peerRestarted
  | .bucketWriteDone | .scrubWriteDone | .answerHandOn | .workQueueAdmit | .requestHandOn _ | .reportAppend
  | .inboundDispatch | .peerSilent | .beaconTaken => true
  | _ => false

/-- Every other command leaves it as it is. -/
theorem exec_index {c : Instr} (hd : Instr.isDeadlineRow c = false) (hc : Instr.touchesIndex c = false) {s t : State}
    (ha : s.station.DeadlinesActed) (h : exec c s = .next t) : t.station.index = s.station.index := by
  rw [← Station.settled_of_acted ha]
  cases c with
  | coldRelease => simp [execColdRelease_frame h]
  | stagingWrite => simp [execStagingWrite_frame h]
  | reportWordRead => simp [execReportWordRead_frame h]
  | statusWordRead => simp [execStatusWordRead_frame h]
  | poolSet => simp [execPoolSet_frame h]
  | configure => simp [execConfigure_frame h]
  | stats => simp [execStats_frame h]
  | unknownCommand => simp [execUnknownCommand_frame h]
  | openLane => simp [execOpenLane_frame h]
  | segment => simp [execSegment_frame h]
  | stored => simp [execStored_frame h]
  | storeFailed => simp [execStoreFailed_frame h]
  | close => simp [execClose_frame h]
  | suspend => simp [execSuspend_frame h]
  | resume => simp [execResume_frame h]
  | abort => simp [execAbort_frame h]
  | release => simp [execRelease_frame h]
  | leaseTick => simp [execLeaseTick_frame h]
  | burstIssue => simp [execBurstIssue_frame h]
  | fetchReadCompletion => simp [execFetchReadCompletion_frame h]
  | fetchTimeout => simp [execFetchTimeout_frame h]
  | burstCompletion => simp [execBurstCompletion_frame h]
  | digestStart => simp [execDigestStart_frame h]
  | digestCompletion => simp [execDigestCompletion_frame h]
  | tagGrant => simp [execTagGrant_frame h]
  | exchangeReportReady => simp [execExchangeReportReady_frame h]
  | laneReportReady => simp [execLaneReportReady_frame h]
  | contention => simp [execContention_frame h]
  | attemptEnd => simp [execAttemptEnd_frame h]
  | yieldClear => simp [execYieldClear_frame h]
  | frameReceived => simp [execFrameReceived_frame h]
  | frameAbandoned => simp [execFrameAbandoned_frame h]
  | peerJoin => simp [execPeerJoin_frame h]
  | conflictReport => simp [execConflictReport_frame h]
  | commandWordWrite => simp [execCommandWordWrite_frame h]
  | warmRelease => simp [execWarmRelease_frame h]
  | leaseDeadline | answerDeadline | holdDeadline | orphanHoldDeadline | silenceDeadline | beaconDue => cases hd
  | _ => cases hc

/-! ### Operations on the queue and the answers of the index unit leave its claims, writes and table -/

/-- The parts of the index unit that neither its queue nor its answers nor its report touch. -/
def IndexUnit.memory (x : IndexUnit) : Vector (Option Claim) 128 × Option (Nat × Bucket) × Option Nat × ShardTable :=
  (x.claims, x.write, x.scrub, x.table)

@[simp] theorem Station.workPush_memory (i : WorkItem) (s : Station) :
    (s.workPush i).index.memory = s.index.memory := rfl

@[simp] theorem Station.deliverInbound_memory (s : Station) : s.deliverInbound.index.memory = s.index.memory := by
  unfold Station.deliverInbound
  (repeat' split) <;> rfl

@[simp] theorem Station.deliverSelf_memory (i : EntryIndex) (s : Station) :
    (s.deliverSelf i).index.memory = s.index.memory := by
  unfold Station.deliverSelf
  split <;> rfl

@[simp] theorem Station.deliverHeld_memory (s : Station) : s.deliverHeld.index.memory = s.index.memory := by
  unfold Station.deliverHeld
  split <;> rfl

@[simp] theorem Station.offerPeerItem_memory (i : WorkItem) (s : Station) :
    (s.offerPeerItem i).index.memory = s.index.memory := by
  unfold Station.offerPeerItem
  split <;> rfl

@[simp] theorem Station.admitSource_memory (x : Source) (s : Station) :
    (s.admitSource x).index.memory = s.index.memory := by
  cases x with
  | bus => exact s.deliverInbound_memory
  | roster => exact s.deliverHeld_memory
  | exchange =>
    unfold Station.admitSource
    cases s.exchange.offerSelf with
    | none => rfl
    | some o => exact s.deliverSelf_memory o.index

@[simp] theorem Station.dispatchRequest_memory (s : Station) : s.dispatchRequest.index.memory = s.index.memory := by
  unfold Station.dispatchRequest
  (repeat' split) <;> simp

@[simp] theorem Station.handOnSelf_memory (i : EntryIndex) (s : Station) :
    (s.handOnSelf i).index.memory = s.index.memory := by
  unfold Station.handOnSelf
  (repeat' split) <;> simp

@[simp] theorem Station.cleanupPeer_memory (r : Bool) (p : StationNo) (s : Station) :
    (s.cleanupPeer r p).index.memory = s.index.memory := by
  simp [Station.cleanupPeer]

@[simp] theorem Station.silencePeer_memory (p : StationNo) (s : Station) :
    (s.silencePeer p).index.memory = s.index.memory := by
  simp [Station.silencePeer]

@[simp] theorem Station.decideBeacon_memory (p : StationNo) (f : Bool) (z : BitVec 4) (s : Station) :
    (s.decideBeacon p f z).index.memory = s.index.memory := by
  unfold Station.decideBeacon
  dsimp only
  (repeat' split) <;> simp

@[simp] theorem Station.takeBeacon_memory (s : Station) : s.takeBeacon.index.memory = s.index.memory := by
  unfold Station.takeBeacon
  (repeat' split) <;> simp

@[simp] theorem Station.tellProducer_memory (p : Producer) (r : Report) (s : Station) :
    (s.tellProducer p r).index.memory = s.index.memory := by
  cases p with
  | lane => cases r <;> simp [Station.tellProducer]
  | _ => rfl

@[simp] theorem Station.appendReport_memory (p : Producer) (r : Report) (s : Station) :
    (s.appendReport p r).index.memory = s.index.memory := by
  unfold Station.appendReport
  split <;> simp

@[simp] theorem Station.handOnAnswer_memory (a : Answer) (rest : List Answer) (s : Station) :
    (s.handOnAnswer a rest).index.memory = s.index.memory := by
  unfold Station.handOnAnswer
  (repeat' split)
  · simp
    rfl
  all_goals rfl

/-- The commands that may touch claims, writes or table once the deadlines are acted on: the resets, START, the work of the
index unit itself, and the scrub. -/
def Instr.touchesMemory : Instr → Bool
  | .coldReset | .warmReset | .start | .leaseExpiry | .ask | .commit | .drop | .releaseItem | .peerLost | .peerRestarted
  | .bucketWriteDone | .scrubWriteDone => true
  | _ => false

/-- Every other command leaves them as they are. -/
theorem exec_memory {c : Instr} (hd : Instr.isDeadlineRow c = false) (hc : Instr.touchesMemory c = false) {s t : State}
    (ha : s.station.DeadlinesActed) (h : exec c s = .next t) : t.station.index.memory = s.station.index.memory := by
  cases hi : Instr.touchesIndex c with
  | false => rw [exec_index hd hi ha h]
  | true =>
    rw [← Station.settled_of_acted ha]
    cases c with
    | answerHandOn | workQueueAdmit | requestHandOn | inboundDispatch | peerSilent | beaconTaken | reportAppend =>
      cases h
      dsimp only
      (repeat' split) <;> simp
    | coldReset | warmReset | start | leaseExpiry | ask | commit | drop | releaseItem | peerLost | peerRestarted
    | bucketWriteDone | scrubWriteDone => cases hc
    | _ => cases hi

end Sys2Proof.Machine
end

section
namespace Sys2Proof.Machine

/-! ### The claim table stays sound (R35 to R37) -/

theorem Station.indexFree_iff {s : Station} : s.indexFree = true ↔
    s.control.state = .running ∧ s.index.write = none ∧ s.index.answers = [] ∧ s.index.ready = none := by
  simp [Station.indexFree, Station.running, and_assoc]

theorem Station.takesItem_iff {s : Station} : s.takesItem = true ↔ s.indexFree = true ∧ s.firstDue = none := by
  simp [Station.takesItem]

theorem Station.startTaken_index (s : Station) : ∃ x, s.startTaken.index = { s.index with scrub := x } := by
  unfold Station.startTaken
  dsimp only
  split
  · exact ⟨_, rfl⟩
  · exact ⟨s.index.scrub, by simp⟩

theorem Station.decideStart_index {e : CmdEntry} {s t : Station} (h : s.decideStart e = some t) :
    ∃ x, t.index = { s.index with scrub := x } := by
  unfold Station.decideStart at h
  (repeat' split at h) <;> cases h
  · exact ⟨_, rfl⟩
  · exact s.startTaken_index
  · exact ⟨_, rfl⟩

/-- An item taken keeps the claim table sound where its bucket operation's decision does. -/
theorem Station.ClaimsSound.takeItem {α : Type} {select : WorkItem → Option α} {act : α → Station → Station} {s : Station}
    (h : s.ClaimsSound) (ha : ∀ x (u : Station), u.ClaimsSound → u.index.write = none → (act x u).ClaimsSound) :
    (s.takeItem select act).ClaimsSound := by
  rcases s.takeItem_cases select act with e | ⟨item, rest, x, -, -, ht, e⟩ <;> rw [e]
  · exact h
  · exact ha x _ (h.of_shard rfl) (Station.indexFree_iff.1 (Station.takesItem_iff.1 ht).1).2.1

theorem Station.ClaimsSound.operation {s : Station} {b : Nat} {decide : BucketRead → Decision} (h : s.ClaimsSound)
    (hw : s.index.write = none)
    (hd : ∀ r : BucketRead, ClaimsFit r.station.index.claims s.placesOf → r.station.index.claims = s.index.claims →
      s.placesOf b = r.places → (decide r).Fits r b s.placesOf) : (s.bucketOperation b decide).ClaimsSound :=
  Station.bucketOperation_sound hw fun r hc hr => hd r (hc ▸ (Station.claimsSound_iff s).1 h) hc hr

theorem exec_keeps_claimsSound {c : Instr} {s t : State} (hd : Instr.isDeadlineRow c = false)
    (ha : s.station.DeadlinesActed) (hs : s.station.ClaimsSound) (h : exec c s = .next t) : t.station.ClaimsSound := by
  cases hc : Instr.touchesMemory c with
  | false =>
    have hm := exec_memory hd hc ha h
    simp only [IndexUnit.memory, Prod.mk.injEq] at hm
    obtain ⟨h1, h2, -, h3⟩ := hm
    exact hs.of_shard (by simp [Station.shard, h1, h2, h3])
  | true =>
    rw [← Station.settled_of_acted ha] at hs
    cases c with
    | coldReset => cases h; exact Station.claimsSound_of_empty rfl
    | warmReset =>
      cases h
      dsimp only
      split
      · exact hs.of_index rfl
      · exact Station.claimsSound_of_empty rfl
    | start =>
      cases h
      refine hs.of_shard (Station.takeHead_keeps Station.shard (fun _ _ => rfl) fun e x y hy => ?_)
      obtain ⟨z, hz⟩ := Station.decideStart_index hy
      simp [Station.shard, hz]
    | ask => cases h; exact hs.takeItem fun x u hu hw => hu.operation hw fun r hf _ hr => decideAsk_fits hf hr
    | commit => cases h; exact hs.takeItem fun x u hu hw => hu.operation hw fun r hf _ hr => decideCommit_fits hf hr
    | drop => cases h; exact hs.takeItem fun x u hu hw => hu.operation hw fun r hf _ hr => decideDrop_fits hf hr
    | releaseItem =>
      cases h; exact hs.takeItem fun x u hu hw => hu.operation hw fun r hf _ hr => decideRelease_fits hf hr
    | peerLost => cases h; exact hs.takeItem fun x u hu _ => hu.clearPeer x
    | peerRestarted => cases h; exact hs.takeItem fun x u hu _ => hu.clearPeer x
    | leaseExpiry =>
      cases h
      dsimp only
      split
      · split
        · rename_i p _ c hc
          split
          · rename_i hfree
            exact hs.operation (Station.indexFree_iff.1 hfree).2.1 fun r hf e hr => decideExpiry_fits hf hr (e ▸ hc)
          · exact hs
        · exact hs
      · exact hs
    | bucketWriteDone =>
      cases h
      dsimp only
      split
      · exact hs.writeDone ‹_›
      · exact hs
    | scrubWriteDone =>
      cases h
      dsimp only
      split
      · split
        · exact hs.scrubDone _
        · exact hs
      · exact hs
    | _ => cases hc

/-- Settles O5. -/
theorem claimsAndEntriesStayApart : Obligations.ClaimsAndEntriesStayApart := by
  intro s t hs h
  exact step_keeps (P := Station.ClaimsSound) (fun _ h => h) (fun _ d ds _ h => h.actDeadline d ds)
    (fun s _ h => h.of_index (by simp)) (fun c s t hd ha hs h => exec_keeps_claimsSound hd ha hs h) hs h

end Sys2Proof.Machine
end

section
namespace Sys2Proof.Machine

/-! ### Station control apart from its counters and reports -/

/-- Station control without its counters and the reports it holds or owes: pins, straps, state, pool table, lock, scrub-owed
marker. -/
def Control.settings (c : Control) : Control :=
  { c with counters := Vector.replicate 24 0, ready := none, startedOwed := none }

@[simp] theorem Station.bump_settings (c : Counter) (s : Station) : (s.bump c).control.settings = s.control.settings := rfl

@[simp] theorem Control.reportAppended_settings (c : Control) : c.reportAppended.settings = c.settings := by
  unfold Control.reportAppended
  split <;> rfl

@[simp] theorem Station.storeUnindexed_settings (r : Reason) (b : Option Binding) (s : Station) :
    (s.storeUnindexed r b).control.settings = s.control.settings := by
  simp [Station.storeUnindexed]

@[simp] theorem Station.exhaust_settings (i : EntryIndex) (s : Station) :
    (s.exhaust i).control.settings = s.control.settings := by
  unfold Station.exhaust
  dsimp only
  split <;> simp

@[simp] theorem Station.attemptFailed_settings (i : EntryIndex) (s : Station) :
    (s.attemptFailed i).control.settings = s.control.settings := by
  unfold Station.attemptFailed
  dsimp only
  split <;> simp

@[simp] theorem Station.giveUp_settings (o : ReleasedOutcome) (i : EntryIndex) (s : Station) :
    (s.giveUp o i).control.settings = s.control.settings := by
  unfold Station.giveUp
  dsimp only
  split <;> simp

theorem Station.answerEntry_settings {i : EntryIndex} {a : AnswerBody} {s t : Station} :
    s.answerEntry i a = some t → t.control.settings = s.control.settings := by
  unfold Station.answerEntry
  split
  case h_1 => unfold Station.answerAsking; rcases a.asVerdict with _ | (_ | _ | _ | _) <;> rintro ⟨⟩ <;> simp
  case h_2 => unfold Station.answerHolding; rcases a.asVerdict with _ | (_ | _ | _ | _) <;> rintro ⟨⟩ <;> simp
  case h_3 => unfold Station.answerCommitting; rcases a with _ | _ | (_ | _ | _) | _ <;> rintro ⟨⟩ <;> simp
  case h_4 =>
    unfold Station.answerReleasing
    rcases a with _ | _ | _ | o
    iterate 3 rintro ⟨⟩
    dsimp only
    cases (s.entry i).kind with
    | askExchange => rintro ⟨⟩
    | hostRelease => rintro ⟨⟩; simp
    | compensation => cases o <;> rintro ⟨⟩ <;> simp
  case h_5 | h_6 =>
    unfold Station.answerAskOrphan; rcases a.asVerdict with _ | (_ | _ | _ | _) <;> rintro ⟨⟩ <;> simp
  case h_7 | h_8 =>
    unfold Station.answerCommitOrphan; rcases a with _ | _ | (_ | _ | _) | _ <;> rintro ⟨⟩ <;> simp
  all_goals rintro ⟨⟩

@[simp] theorem Station.takeAnswer_settings (g : Tag) (a : AnswerBody) (s : Station) :
    (s.takeAnswer g a).control.settings = s.control.settings := by
  unfold Station.takeAnswer
  split
  · cases h : s.answerEntry (tagIndex g) a with
    | none => rfl
    | some t => exact Station.answerEntry_settings h
  · rfl

@[simp] theorem Station.sendFailed_settings (k : RequestKind) (i : EntryIndex) (s : Station) :
    (s.sendFailed k i).control.settings = s.control.settings := by
  unfold Station.sendFailed
  split <;> simp

@[simp] theorem Station.takeOutcome_settings (k : RequestKind) (g : Tag) (a : Bool) (s : Station) :
    (s.takeOutcome k g a).control.settings = s.control.settings := by
  unfold Station.takeOutcome
  dsimp only
  (repeat' split) <;> simp

@[simp] theorem Station.tellOutcome_settings (f : TxFrame) (a : Bool) (s : Station) :
    (s.tellOutcome f a).control.settings = s.control.settings := by
  unfold Station.tellOutcome
  (repeat' split) <;> simp

@[simp] theorem Station.endAttempt_settings (f : TxFrame) (a : Bool) (s : Station) :
    (s.endAttempt f a).control.settings = s.control.settings := by
  unfold Station.endAttempt
  (repeat' split) <;> simp

@[simp] theorem Station.placeFrame_settings (f : Frame) (d : Bool) (s : Station) :
    (s.placeFrame f d).control.settings = s.control.settings := by
  unfold Station.placeFrame
  split <;> rfl

@[simp] theorem Station.checkFrame_settings (c : List Bool) (s : Station) :
    (s.checkFrame c).control.settings = s.control.settings := by
  unfold Station.checkFrame Station.goodFrame
  dsimp only
  (repeat' split) <;> simp

@[simp] theorem Station.cleanLost_settings (i : EntryIndex) (s : Station) :
    (s.cleanLost i).control.settings = s.control.settings := by
  unfold Station.cleanLost
  dsimp only
  (repeat' split) <;> simp

@[simp] theorem Station.cleanRestarted_settings (i : EntryIndex) (s : Station) :
    (s.cleanRestarted i).control.settings = s.control.settings := by
  unfold Station.cleanRestarted
  dsimp only
  (repeat' split) <;> simp

@[simp] theorem Station.cleanEntry_settings (r : Bool) (p : StationNo) (i : EntryIndex) (s : Station) :
    (Station.cleanEntry r p s i).control.settings = s.control.settings := by
  unfold Station.cleanEntry
  (repeat' split) <;> simp

@[simp] theorem Station.cleanExchange_settings (r : Bool) (p : StationNo) (s : Station) :
    (s.cleanExchange r p).control.settings = s.control.settings := by
  unfold Station.cleanExchange
  generalize List.finRange 256 = l
  induction l generalizing s with
  | nil => rfl
  | cons i l ih => rw [List.foldl_cons, ih, Station.cleanEntry_settings]

@[simp] theorem Station.cleanupPeer_settings (r : Bool) (p : StationNo) (s : Station) :
    (s.cleanupPeer r p).control.settings = s.control.settings := by
  simp [Station.cleanupPeer]

@[simp] theorem Station.silencePeer_settings (p : StationNo) (s : Station) :
    (s.silencePeer p).control.settings = s.control.settings := by
  simp [Station.silencePeer]

@[simp] theorem Station.takeBeacon_settings (s : Station) : s.takeBeacon.control.settings = s.control.settings := by
  unfold Station.takeBeacon Station.decideBeacon
  dsimp only
  (repeat' split) <;> simp

@[simp] theorem Station.lookupCheck_settings (l : LaneNo) (q : Word) (k : Key) (s : Station) :
    (s.lookupCheck l q k).control.settings = s.control.settings := by
  unfold Station.lookupCheck
  dsimp only
  (repeat' split) <;> simp

@[simp] theorem Station.digestDone_settings (d : DigestEntry) (s : Station) :
    (s.digestDone d).control.settings = s.control.settings := by
  simp [Station.digestDone]

@[simp] theorem Station.grant_settings (r : TagRequest) (i : EntryIndex) (s : Station) :
    (s.grant r i).control.settings = s.control.settings := by
  unfold Station.grant
  (repeat' split) <;> simp

@[simp] theorem Station.tellProducer_settings (p : Producer) (r : Report) (s : Station) :
    (s.tellProducer p r).control.settings = s.control.settings := by
  cases p with
  | lane => cases r <;> simp [Station.tellProducer]
  | _ => simp [Station.tellProducer]

@[simp] theorem Station.appendReport_settings (p : Producer) (r : Report) (s : Station) :
    (s.appendReport p r).control.settings = s.control.settings := by
  unfold Station.appendReport
  split <;> simp

@[simp] theorem Station.handOnAnswer_settings (a : Answer) (rest : List Answer) (s : Station) :
    (s.handOnAnswer a rest).control.settings = s.control.settings := by
  unfold Station.handOnAnswer
  dsimp only
  (repeat' split) <;> simp

theorem Station.decideStats_settings {s t : Station} (h : s.decideStats = some t) :
    t.control.settings = s.control.settings := by
  unfold Station.decideStats at h
  split at h <;> cases h
  rfl

/-! ### Bucket operations and PEER items leave it alone -/

@[simp] theorem Station.releaseClaim_settings (p : ClaimPos) (c : Claim) (s : Station) :
    (s.releaseClaim p c).2.control.settings = s.control.settings := by
  unfold Station.releaseClaim
  split <;> simp

theorem decideAsk_settings (sender : Pair) (key : Key) (r : BucketRead) :
    (decideAsk sender key r).station.control.settings = r.station.control.settings := by
  unfold decideAsk Station.askClaimed Station.askAbsent
  dsimp only
  (repeat' split) <;> simp

theorem decideCommit_settings (sender : Pair) (key : Key) (locator : Locator) (r : BucketRead) :
    (decideCommit sender key locator r).station.control.settings = r.station.control.settings := by
  unfold decideCommit commitCommitted commitClaimed commitAbsent
  dsimp only
  (repeat' split) <;> simp

theorem decideDrop_settings (sender : Pair) (key : Key) (r : BucketRead) :
    (decideDrop sender key r).station.control.settings = r.station.control.settings := by
  unfold decideDrop
  dsimp only
  (repeat' split) <;> simp

theorem decideExpiry_settings (p : ClaimPos) (c : Claim) (r : BucketRead) :
    (decideExpiry p c r).station.control.settings = r.station.control.settings := by
  simp [decideExpiry]

theorem decideRelease_settings (sender : Pair) (key : Key) (locator : Locator) (r : BucketRead) :
    (decideRelease sender key locator r).station.control.settings = r.station.control.settings := by
  unfold decideRelease
  dsimp only
  (repeat' split) <;> rfl

/-! ### The beacon deadline -/

@[simp] theorem Roster.oweConflict_beaconDeadline (c : OwedConflict) (r : Roster) :
    (r.oweConflict c).beaconDeadline = r.beaconDeadline := by
  unfold Roster.oweConflict
  split <;> rfl

@[simp] theorem Station.reportPeer_beaconDeadline (v : PeerEvent) (p : StationNo) (s : Station) :
    (s.reportPeer v p).roster.beaconDeadline = s.roster.beaconDeadline := rfl

@[simp] theorem Station.deliverHeld_beaconDeadline (s : Station) :
    s.deliverHeld.roster.beaconDeadline = s.roster.beaconDeadline := by
  unfold Station.deliverHeld
  split <;> rfl

@[simp] theorem Station.admitSource_beaconDeadline (x : Source) (s : Station) :
    (s.admitSource x).roster.beaconDeadline = s.roster.beaconDeadline := by
  unfold Station.admitSource
  dsimp only
  (repeat' split) <;> simp

@[simp] theorem Station.offerPeerItem_beaconDeadline (i : WorkItem) (s : Station) :
    (s.offerPeerItem i).roster.beaconDeadline = s.roster.beaconDeadline := by
  unfold Station.offerPeerItem
  split <;> rfl

@[simp] theorem Station.cleanupPeer_beaconDeadline (r : Bool) (p : StationNo) (s : Station) :
    (s.cleanupPeer r p).roster.beaconDeadline = s.roster.beaconDeadline := by
  simp [Station.cleanupPeer]

@[simp] theorem Station.silencePeer_beaconDeadline (p : StationNo) (s : Station) :
    (s.silencePeer p).roster.beaconDeadline = s.roster.beaconDeadline := by
  simp [Station.silencePeer]

@[simp] theorem Station.takeBeacon_beaconDeadline (s : Station) :
    s.takeBeacon.roster.beaconDeadline = s.roster.beaconDeadline := by
  unfold Station.takeBeacon Station.decideBeacon
  dsimp only
  (repeat' split) <;> simp

@[simp] theorem Station.joinPeer_beaconDeadline (p : StationNo) (s : Station) :
    (s.joinPeer p).roster.beaconDeadline = s.roster.beaconDeadline := rfl

@[simp] theorem Station.tellOutcome_beaconDeadline (f : TxFrame) (a : Bool) (s : Station) :
    (s.tellOutcome f a).roster.beaconDeadline = s.roster.beaconDeadline := by
  unfold Station.tellOutcome
  (repeat' split) <;> simp [Roster.beaconOutcome]

@[simp] theorem Station.endAttempt_beaconDeadline (f : TxFrame) (a : Bool) (s : Station) :
    (s.endAttempt f a).roster.beaconDeadline = s.roster.beaconDeadline := by
  unfold Station.endAttempt
  (repeat' split) <;> simp

@[simp] theorem Station.checkFrame_beaconDeadline (c : List Bool) (s : Station) :
    (s.checkFrame c).roster.beaconDeadline = s.roster.beaconDeadline := by
  unfold Station.checkFrame Station.goodFrame Station.signOfLife
  dsimp only
  (repeat' split) <;> simp

@[simp] theorem Station.tellProducer_beaconDeadline (p : Producer) (r : Report) (s : Station) :
    (s.tellProducer p r).roster.beaconDeadline = s.roster.beaconDeadline := by
  cases p with
  | lane => cases r <;> simp [Station.tellProducer]
  | _ => rfl

@[simp] theorem Station.appendReport_beaconDeadline (p : Producer) (r : Report) (s : Station) :
    (s.appendReport p r).roster.beaconDeadline = s.roster.beaconDeadline := by
  unfold Station.appendReport
  split <;> simp

end Sys2Proof.Machine
end

section
namespace Sys2Proof.Machine

/-! ### Which commands touch settings, clock, beacon deadline or scrub -/

/-- What start-up and resets are about, but for the scrub: the settings of station control, the lease clock and the beacon
deadline. -/
def Station.startup (s : Station) : Control × Clock × Option Tick :=
  (s.control.settings, s.clock, s.roster.beaconDeadline)

/-- The commands that may touch them once the deadlines are acted on. -/
def Instr.touchesStartup : Instr → Bool
  | .coldReset | .warmReset | .coldRelease _ _ _ _ _ | .warmRelease | .poolSet | .start | .scrubWriteDone | .leaseTick => true
  | _ => false

/-- A bucket operation leaves them as they are where its decision does. -/
theorem Station.bucketOperation_startup (s : Station) (b : Nat) {decide : BucketRead → Decision}
    (h : ∀ r : BucketRead, (decide r).station.startup = r.station.startup) :
    (s.bucketOperation b decide).startup = s.startup := by
  have ho : (s.openBucket b).station.startup = s.startup := by
    unfold Station.openBucket
    split <;> rfl
  exact (h (s.openBucket b)).trans ho

theorem Station.clearPeer_settings (peer : StationNo) (s : Station) :
    (s.clearPeer peer).control.settings = s.control.settings := by
  have key : ∀ (ps : List ClaimPos) (acc : List Answer × Station),
      (ps.foldl (Station.clearPeerAt peer) acc).2.control.settings = acc.2.control.settings := fun ps => by
    induction ps with
    | nil => exact fun _ => rfl
    | cons p ps ih =>
      intro acc
      rw [List.foldl_cons, ih]
      unfold Station.clearPeerAt
      dsimp only
      (repeat' split) <;> simp
  unfold Station.clearPeer
  generalize List.finRange 128 = ps
  exact key ps ([], s)

/-- A command that takes an item off the work queue leaves them as they are where its act does. -/
theorem Station.takeItem_startup {α : Type} {select : WorkItem → Option α} {act : α → Station → Station} {s : Station}
    (h : ∀ x (u : Station), (act x u).startup = u.startup) : (s.takeItem select act).startup = s.startup :=
  Station.takeItem_keeps Station.startup (fun _ _ => rfl) h

theorem Station.clearPeer_startup (peer : StationNo) (s : Station) : (s.clearPeer peer).startup = s.startup := by
  simp [Station.startup, Station.clearPeer_settings]

/-- Every other command leaves them as they are. -/
theorem exec_startup {c : Instr} (hd : Instr.isDeadlineRow c = false) (hc : Instr.touchesStartup c = false) {s t : State}
    (ha : s.station.DeadlinesActed) (h : exec c s = .next t) : t.station.startup = s.station.startup := by
  rw [← Station.settled_of_acted ha]
  cases c with
  | stagingWrite => simp [Station.startup, execStagingWrite_frame h]
  | reportWordRead => simp [Station.startup, execReportWordRead_frame h]
  | statusWordRead => simp [Station.startup, execStatusWordRead_frame h]
  | configure => simp [Station.startup, execConfigure_frame h]
  | unknownCommand => simp [Station.startup, execUnknownCommand_frame h]
  | openLane => simp [Station.startup, execOpenLane_frame h]
  | segment => simp [Station.startup, execSegment_frame h]
  | stored => simp [Station.startup, execStored_frame h]
  | storeFailed => simp [Station.startup, execStoreFailed_frame h]
  | close => simp [Station.startup, execClose_frame h]
  | suspend => simp [Station.startup, execSuspend_frame h]
  | resume => simp [Station.startup, execResume_frame h]
  | abort => simp [Station.startup, execAbort_frame h]
  | release => simp [Station.startup, execRelease_frame h]
  | burstIssue => simp [Station.startup, execBurstIssue_frame h]
  | fetchReadCompletion => simp [Station.startup, execFetchReadCompletion_frame h]
  | fetchTimeout => simp [Station.startup, execFetchTimeout_frame h]
  | burstCompletion => simp [Station.startup, execBurstCompletion_frame h]
  | digestStart => simp [Station.startup, execDigestStart_frame h]
  | exchangeReportReady => simp [Station.startup, execExchangeReportReady_frame h]
  | laneReportReady => simp [Station.startup, execLaneReportReady_frame h]
  | contention => simp [Station.startup, execContention_frame h]
  | yieldClear => simp [Station.startup, execYieldClear_frame h]
  | frameAbandoned | peerJoin | conflictReport | digestCompletion | tagGrant | attemptEnd | frameReceived | answerHandOn
  | workQueueAdmit | requestHandOn | inboundDispatch | peerSilent | reportAppend | bucketWriteDone =>
    cases h
    dsimp only
    (repeat' split) <;> simp [Station.startup, Station.handOnAnswer_blocks]
  | beaconTaken => cases h; simp [Station.startup]
  | stats =>
    cases h
    exact Station.takeHead_keeps Station.startup (fun _ _ => rfl) fun _ x y hy => by
      simp [Station.startup, Station.decideStats_blocks hy, Station.decideStats_settings hy]
  | ask =>
    cases h
    exact Station.takeItem_startup fun _ u => u.bucketOperation_startup _ fun r => by
      simp [Station.startup, decideAsk_settings, decideAsk_blocks]
  | commit =>
    cases h
    exact Station.takeItem_startup fun _ u => u.bucketOperation_startup _ fun r => by
      simp [Station.startup, decideCommit_settings, decideCommit_blocks]
  | drop =>
    cases h
    exact Station.takeItem_startup fun _ u => u.bucketOperation_startup _ fun r => by
      simp [Station.startup, decideDrop_settings, decideDrop_blocks]
  | releaseItem =>
    cases h
    exact Station.takeItem_startup fun _ u => u.bucketOperation_startup _ fun r => by
      simp [Station.startup, decideRelease_settings, decideRelease_blocks]
  | leaseExpiry =>
    cases h
    dsimp only
    (repeat' split)
    · exact Station.bucketOperation_startup _ _ fun r => by
        simp [Station.startup, decideExpiry_settings, decideExpiry_blocks]
    all_goals rfl
  | peerLost | peerRestarted => cases h; exact Station.takeItem_startup Station.clearPeer_startup
  | commandWordWrite => simp [Station.startup, execCommandWordWrite_frame h]
  | leaseDeadline | answerDeadline | holdDeadline | orphanHoldDeadline | silenceDeadline | beaconDue => cases hd
  | _ => cases hc

theorem Station.bucketOperation_scrub (s : Station) (b : Nat) {decide : BucketRead → Decision}
    (h : ∀ r : BucketRead, r.station.index.ClaimsOrRecords (decide r).station.index) :
    (s.bucketOperation b decide).index.scrub = s.index.scrub := by
  obtain ⟨x, hx⟩ := s.openBucket_index b
  obtain ⟨v, w, hd⟩ := h (s.openBucket b)
  change (decide (s.openBucket b)).station.index.scrub = _
  rw [hd, hx]

/-- A PEER item touches claims and answers of the index unit only. -/
theorem Station.clearPeer_index (peer : StationNo) (s : Station) :
    ∃ v a, (s.clearPeer peer).index = { s.index with claims := v, answers := a } := by
  have key : ∀ (ps : List ClaimPos) (acc : List Answer × Station),
      ∃ v, (ps.foldl (Station.clearPeerAt peer) acc).2.index = { acc.2.index with claims := v } := fun ps => by
    induction ps with
    | nil => exact fun _ => ⟨_, rfl⟩
    | cons p ps ih =>
      intro acc
      obtain ⟨v, hv⟩ := ih (Station.clearPeerAt peer acc p)
      have one : ∃ w, (Station.clearPeerAt peer acc p).2.index = { acc.2.index with claims := w } := by
        unfold Station.clearPeerAt
        dsimp only
        split
        · split
          · exact ⟨_, Station.releaseClaim_index _ _ _⟩
          · exact ⟨_, rfl⟩
        · exact ⟨_, rfl⟩
      obtain ⟨w, hw⟩ := one
      exact ⟨v, by rw [List.foldl_cons, hv, hw]⟩
  unfold Station.clearPeer
  generalize List.finRange 128 = ps
  obtain ⟨v, hv⟩ := key ps ([], s)
  exact ⟨v, _, by dsimp only; rw [hv]⟩

theorem Station.takeItem_scrub {α : Type} {select : WorkItem → Option α} {act : α → Station → Station} {s : Station}
    (h : ∀ x (u : Station), (act x u).index.scrub = u.index.scrub) :
    (s.takeItem select act).index.scrub = s.index.scrub :=
  Station.takeItem_keeps (fun u => u.index.scrub) (fun _ _ => rfl) h

/-- The scrub's bucket in flight is touched by the resets, START and the scrub only. -/
theorem exec_scrub {c : Instr} (hd : Instr.isDeadlineRow c = false)
    (hc : c ≠ .coldReset ∧ c ≠ .warmReset ∧ c ≠ .start ∧ c ≠ .scrubWriteDone) {s t : State}
    (ha : s.station.DeadlinesActed) (h : exec c s = .next t) : t.station.index.scrub = s.station.index.scrub := by
  have peer : ∀ p (u : Station), (u.clearPeer p).index.scrub = u.index.scrub := fun p u => by
    obtain ⟨v, a, hv⟩ := u.clearPeer_index p
    rw [hv]
  cases hm : Instr.touchesMemory c with
  | false => exact congrArg (·.2.2.1) (exec_memory hd hm ha h)
  | true =>
    rw [← Station.settled_of_acted ha]
    cases c with
    | ask => cases h; exact Station.takeItem_scrub fun _ u => u.bucketOperation_scrub _ (decideAsk_index _ _)
    | commit => cases h; exact Station.takeItem_scrub fun _ u => u.bucketOperation_scrub _ (decideCommit_index _ _ _)
    | drop => cases h; exact Station.takeItem_scrub fun _ u => u.bucketOperation_scrub _ (decideDrop_index _ _)
    | releaseItem => cases h; exact Station.takeItem_scrub fun _ u => u.bucketOperation_scrub _ (decideRelease_index _ _ _)
    | leaseExpiry =>
      cases h
      dsimp only
      (repeat' split)
      · exact Station.bucketOperation_scrub _ _ (decideExpiry_index _ _)
      all_goals rfl
    | peerLost | peerRestarted => cases h; exact Station.takeItem_scrub peer
    | bucketWriteDone => cases h; dsimp only; split <;> rfl
    | coldReset | warmReset | start | scrubWriteDone => simp at hc
    | _ => cases hm

/-! ### The command FIFO -/

@[simp] theorem Station.tellProducer_fifo (p : Producer) (r : Report) (s : Station) :
    (s.tellProducer p r).port.fifo = s.port.fifo := by
  cases p with
  | lane => cases r <;> simp [Station.tellProducer]
  | _ => rfl

@[simp] theorem Station.appendReport_fifo (p : Producer) (r : Report) (s : Station) :
    (s.appendReport p r).port.fifo = s.port.fifo := by
  unfold Station.appendReport
  split <;> simp

/-- An empty command FIFO is filled by a write of the command word only. -/
theorem exec_fifo_nil {c : Instr} (hd : Instr.isDeadlineRow c = false) {s t : State} (h : exec c s = .next t)
    (hw : ∀ bytes value, c ≠ .commandWordWrite bytes value) (hf : s.station.port.fifo = []) :
    t.station.port.fifo = [] := by
  have hs : s.station.settled.port.fifo = [] := by simpa using hf
  have head : ∀ code decide, (s.station.settled.takeHead code decide).port.fifo = [] := fun code decide => by
    rcases s.station.settled.takeHead_cases code decide with e | ⟨_, _, hcons, -⟩
    · rw [e, hs]
    · rw [hs] at hcons; cases hcons
  cases c with
  | coldReset => cases h; rfl
  | warmReset => cases h; dsimp only; split <;> [exact hs; rfl]
  | poolSet | configure | start | stats | release | openLane | resume | segment | stored | storeFailed | close | suspend
  | abort => cases h; exact head _ _
  | unknownCommand => cases h; dsimp only; rw [hs]; exact hs
  | commandWordWrite bytes value => exact absurd rfl (hw bytes value)
  | stagingWrite | reportWordRead | statusWordRead => cases h; dsimp only; split <;> exact hs
  | reportAppend => cases h; dsimp only; (repeat' split) <;> simp [hf]
  | coldRelease => simp [execColdRelease_frame h, hf]
  | warmRelease => simp [execWarmRelease_frame h, hf]
  | leaseTick => simp [execLeaseTick_frame h, hf]
  | leaseExpiry => simp [execLeaseExpiry_frame h, hf]
  | ask => simp [execAsk_frame h, hf]
  | commit => simp [execCommit_frame h, hf]
  | drop => simp [execDrop_frame h, hf]
  | releaseItem => simp [execReleaseItem_frame h, hf]
  | peerLost => simp [execPeerLost_frame h, hf]
  | peerRestarted => simp [execPeerRestarted_frame h, hf]
  | bucketWriteDone => simp [execBucketWriteDone_frame h, hf]
  | answerHandOn => simp [execAnswerHandOn_frame h, hf]
  | workQueueAdmit => simp [execWorkQueueAdmit_frame h, hf]
  | scrubWriteDone => simp [execScrubWriteDone_frame h, hf]
  | burstIssue => simp [execBurstIssue_frame h, hf]
  | fetchReadCompletion => simp [execFetchReadCompletion_frame h, hf]
  | fetchTimeout => simp [execFetchTimeout_frame h, hf]
  | burstCompletion => simp [execBurstCompletion_frame h, hf]
  | digestStart => simp [execDigestStart_frame h, hf]
  | digestCompletion => simp [execDigestCompletion_frame h, hf]
  | tagGrant => simp [execTagGrant_frame h, hf]
  | requestHandOn => simp [execRequestHandOn_frame h, hf]
  | exchangeReportReady => simp [execExchangeReportReady_frame h, hf]
  | laneReportReady => simp [execLaneReportReady_frame h, hf]
  | contention => simp [execContention_frame h, hf]
  | attemptEnd => simp [execAttemptEnd_frame h, hf]
  | yieldClear => simp [execYieldClear_frame h, hf]
  | frameReceived => simp [execFrameReceived_frame h, hf]
  | frameAbandoned => simp [execFrameAbandoned_frame h, hf]
  | inboundDispatch => simp [execInboundDispatch_frame h, hf]
  | peerSilent => simp [execPeerSilent_frame h, hf]
  | peerJoin => simp [execPeerJoin_frame h, hf]
  | beaconTaken => simp [execBeaconTaken_frame h, hf]
  | conflictReport => simp [execConflictReport_frame h, hf]
  | leaseDeadline | answerDeadline | holdDeadline | orphanHoldDeadline | silenceDeadline | beaconDue => cases hd

end Sys2Proof.Machine
end

section
namespace Sys2Proof.Machine

/-! ### Station state, lock, straps, scrub-owed marker, clock and scrub stay in agreement (R5, R8, R161, R183, R184) -/

theorem Control.settings_eq {c d : Control} (h : c.settings = d.settings) :
    c.coldPin = d.coldPin ∧ c.warmPin = d.warmPin ∧ c.straps = d.straps ∧ c.state = d.state ∧ c.pools = d.pools ∧
      c.lock = d.lock ∧ c.scrubOwed = d.scrubOwed :=
  ⟨(congrArg Control.coldPin h :), (congrArg Control.warmPin h :), (congrArg Control.straps h :),
    (congrArg Control.state h :), (congrArg Control.pools h :), (congrArg Control.lock h :),
    (congrArg Control.scrubOwed h :)⟩

/-- The settings and the scrub kept; outside CONFIG the clock may go on, with its divider below the tick length. -/
theorem Station.StartSound.of_settings {s t : Station} (h : s.StartSound) (hc : t.control.settings = s.control.settings)
    (hs : t.index.scrub = s.index.scrub) (hf : s.inReset = true → s.port.fifo = [] → t.port.fifo = [])
    (hi : s.control.state = .config → t.clock = s.clock ∧ t.roster.beaconDeadline = s.roster.beaconDeadline)
    (hr : t.clock.running = s.clock.running)
    (hd : t.clock.divider < Config.tickLength s.control.straps.tickTap) : t.StartSound := by
  obtain ⟨hcold, hwarm, hstraps, hstate, -, hlock, howed⟩ := Control.settings_eq hc
  have hreset : t.inReset = s.inReset := congrArg₂ (· || ·) hcold hwarm
  exact {
    pinned := fun ht => by
      rw [hreset] at ht
      exact ⟨hstate.trans (h.pinned ht).1, hf ht (h.pinned ht).2⟩
    started := by rw [hstate, hlock, hstraps, howed, hr]; exact h.started
    idle := fun ht => by
      rw [hstate] at ht
      rw [(hi ht).1, (hi ht).2]
      exact h.idle ht
    scrubbing := by rw [hstate, hs]; exact h.scrubbing
    divider := by rw [hstraps]; exact hd }

theorem Station.StartSound.of_startup {s t : Station} (h : s.StartSound) (e : t.startup = s.startup)
    (hs : t.index.scrub = s.index.scrub) (hf : s.inReset = true → s.port.fifo = [] → t.port.fifo = []) : t.StartSound := by
  simp only [Station.startup, Prod.mk.injEq] at e
  obtain ⟨hc, hk, hb⟩ := e
  exact h.of_settings hc hs hf (fun _ => ⟨hk, hb⟩) (by rw [hk]) (by rw [hk]; exact h.divider)

theorem tickLength_pos (tap : BitVec 3) : 0 < Config.tickLength tap := Nat.two_pow_pos _

/-- A station in CONFIG with its FIFO, clock, beacon deadline and scrub at their reset values. -/
theorem Station.startSound_of_config {s : Station} (hst : s.control.state = .config) (hf : s.port.fifo = [])
    (hk : s.clock = Clock.reset) (hb : s.roster.beaconDeadline = none) (hs : s.index.scrub = none) : s.StartSound where
  pinned _ := ⟨hst, hf⟩
  started h := absurd hst h
  idle _ := ⟨hk, hb⟩
  scrubbing := by simp [hst, hs]
  divider := by rw [hk]; exact tickLength_pos _

/-- A started station: out of CONFIG, with no pin asserted. -/
theorem Station.startSound_of_started {s : Station} (hr : s.inReset = false) (hst : s.control.state ≠ .config)
    (hl : s.control.lock = true) (hv : s.control.straps.valid = true) (ho : s.control.scrubOwed = false)
    (hk : s.clock.running = true) (hs : s.control.state = .scrub ↔ s.index.scrub.isSome = true)
    (hd : s.clock.divider < Config.tickLength s.control.straps.tickTap) : s.StartSound where
  pinned h := by rw [hr] at h; cases h
  started _ := ⟨hl, hv, ho, hk⟩
  idle h := absurd h hst
  scrubbing := hs
  divider := hd

theorem Station.StartSound.scrub_none {s : Station} (h : s.StartSound) (hst : s.control.state ≠ .scrub) :
    s.index.scrub = none := by
  simpa using mt h.scrubbing.2 hst

theorem Station.StartSound.not_config_of_running {s : Station} (h : s.StartSound) (hr : s.clock.running = true) :
    s.control.state ≠ .config := fun hc => by
  rw [(h.idle hc).1] at hr
  cases hr

theorem Station.StartSound.inReset_of_not_config {s : Station} (h : s.StartSound) (hst : s.control.state ≠ .config) :
    s.inReset = false := by
  simpa using fun hr => hst (h.pinned hr).1

theorem Station.StartSound.inReset_of_cons {s : Station} (h : s.StartSound) {e : CmdEntry} {rest : List CmdEntry}
    (hf : s.port.fifo = e :: rest) : s.inReset = false := by
  have : s.inReset ≠ true := fun hr => by
    rw [(h.pinned hr).2] at hf
    cases hf
  simpa using this

theorem Station.actDeadline_settings (d : Deadline) (s : Station) :
    (s.actDeadline d).control.settings = s.control.settings := by
  obtain ⟨⟨v, hv⟩, -⟩ := Station.actDeadline_parts d s
  rw [hv]
  rfl

/-- A deadline is acted on only while the clock runs, outside CONFIG. -/
theorem startSound_keptByDeadlines : KeptByDeadlines Station.StartSound := by
  intro s d ds hd h
  have hst : s.control.state ≠ .config := fun hc => by
    rw [(h.idle hc).1] at hd
    cases hd
  obtain ⟨-, ⟨v, hv⟩, -⟩ := Station.actDeadline_parts d { s with clock.reached := ds }
  exact h.of_settings (Station.actDeadline_settings d _) (by rw [hv]) (fun _ hf => by simpa using hf)
    (fun hc => absurd hc hst) (by simp) (by simpa using h.divider)

theorem Station.StartSound.advanceClock {s : Station} (h : s.StartSound) (hr : s.clock.running = true) :
    s.advanceClock.StartSound :=
  h.of_settings rfl rfl (fun _ hf => hf) (fun hc => absurd hc (h.not_config_of_running hr)) rfl (tickLength_pos _)

theorem Station.StartSound.refclkPeriod {s : Station} (h : s.StartSound) : s.refclkPeriod.StartSound := by
  unfold Station.refclkPeriod
  split
  · exact h
  · rename_i hr
    have hr : s.clock.running = true := by simpa using hr
    split
    · exact h.of_settings rfl rfl (fun _ hf => hf) (fun hc => absurd hc (h.not_config_of_running hr)) rfl ‹_›
    · exact h.advanceClock hr

/-! ### The entry to RUNNING -/

@[simp] theorem Control.oweStarted_settings (f : Bool) (c : Control) : (c.oweStarted f).settings = c.settings := by
  unfold Control.oweStarted
  split <;> rfl

theorem Station.enterRunning_settings (f : Bool) (s : Station) :
    (s.enterRunning f).control.settings = { s.control.settings with state := .running } := by
  unfold Station.enterRunning
  dsimp only
  rw [Control.oweStarted_settings, (Station.beaconFallsDue_blocks _).1]
  rfl

/-- A START that is taken (R185): the lock is set, the scrub is owed no more, and the station is in SCRUB or RUNNING. -/
theorem Station.startTaken_settings (s : Station) : s.startTaken.control.settings =
    { s.control.settings with
      lock := true, scrubOwed := false, state := if s.control.scrubOwed then .scrub else .running } := by
  unfold Station.startTaken
  cases h : s.control.scrubOwed with
  | true => rfl
  | false =>
    simp only [Bool.false_eq_true, if_false, Station.enterRunning_settings]
    simp [Control.settings, h]

theorem Station.startTaken_clock (s : Station) : s.startTaken.clock = { Clock.reset with running := true } := by
  unfold Station.startTaken
  dsimp only
  split <;> simp

theorem Station.startTaken_scrub (s : Station) :
    s.startTaken.index.scrub = if s.control.scrubOwed then some 0 else s.index.scrub := by
  unfold Station.startTaken
  dsimp only
  split <;> simp

theorem Station.StartSound.startTaken {s : Station} (h : s.StartSound) (hr : s.inReset = false)
    (hst : s.control.state = .config) (hv : s.control.straps.valid = true) : s.startTaken.StartSound := by
  have hset := s.startTaken_settings
  have hcold : s.startTaken.control.coldPin = s.control.coldPin := (congrArg Control.coldPin hset :)
  have hwarm : s.startTaken.control.warmPin = s.control.warmPin := (congrArg Control.warmPin hset :)
  have hstraps : s.startTaken.control.straps = s.control.straps := (congrArg Control.straps hset :)
  have hlock : s.startTaken.control.lock = true := (congrArg Control.lock hset :)
  have howed : s.startTaken.control.scrubOwed = false := (congrArg Control.scrubOwed hset :)
  have hstate : s.startTaken.control.state = if s.control.scrubOwed then .scrub else .running :=
    (congrArg Control.state hset :)
  have hnone := h.scrub_none (by rw [hst]; decide)
  refine Station.startSound_of_started ((congrArg₂ (· || ·) hcold hwarm).trans hr) ?_ hlock (hstraps ▸ hv) howed ?_ ?_ ?_
  · rw [hstate]; split <;> decide
  · rw [s.startTaken_clock]
  · rw [hstate, s.startTaken_scrub, hnone]; split <;> simp
  · rw [s.startTaken_clock]; exact tickLength_pos _

theorem Station.StartSound.decideStart {s t : Station} {e : CmdEntry} (h : s.StartSound) (hr : s.inReset = false)
    (hd : s.decideStart e = some t) : t.StartSound := by
  have vacuous : ∀ {p : Prop}, s.inReset = true → p := fun hr' => by rw [hr] at hr'; cases hr'
  unfold Station.decideStart at hd
  split at hd
  · cases hd; exact h.of_startup rfl rfl vacuous
  · rename_i hst
    split at hd
    · cases hd
    split at hd
    · cases hd; exact h.startTaken hr (by simpa using hst) ‹_›
    · cases hd; exact h.of_startup rfl rfl vacuous

theorem Station.StartSound.decidePoolSet {s : Station} (h : s.StartSound) (hr : s.inReset = false) (e : CmdEntry) :
    (s.decidePoolSet e).StartSound := by
  have vacuous : ∀ {p : Prop}, s.inReset = true → p := fun hr' => by rw [hr] at hr'; cases hr'
  unfold Station.decidePoolSet
  split
  · exact h.of_startup rfl rfl vacuous
  split
  · exact h.of_startup rfl rfl vacuous
  · exact ⟨vacuous, h.started, h.idle, h.scrubbing, h.divider⟩

/-- The scrub's write completes: the next one begins, or the station enters RUNNING with none in flight (R28). -/
theorem Station.StartSound.scrubDone {s : Station} (h : s.StartSound) (hst : s.control.state = .scrub) (b : Nat) :
    (s.scrubDone b).StartSound := by
  have hnc : s.control.state ≠ .config := by rw [hst]; decide
  have hr := h.inReset_of_not_config hnc
  obtain ⟨hlock, hvalid, howed, hrun⟩ := h.started hnc
  unfold Station.scrubDone
  dsimp only
  split
  · exact Station.startSound_of_started hr hnc hlock hvalid howed hrun (by simp [hst]) h.divider
  · generalize hu : ({ s with index.table := s.index.table.scrubWrite b, index.scrub := none } : Station) = u
    have hset := u.enterRunning_settings true
    have hstate : (u.enterRunning true).control.state = .running := (congrArg Control.state hset :)
    have hcold : (u.enterRunning true).control.coldPin = u.control.coldPin := (congrArg Control.coldPin hset :)
    have hwarm : (u.enterRunning true).control.warmPin = u.control.warmPin := (congrArg Control.warmPin hset :)
    have hstraps : (u.enterRunning true).control.straps = u.control.straps := (congrArg Control.straps hset :)
    have hlock' : (u.enterRunning true).control.lock = u.control.lock := (congrArg Control.lock hset :)
    have howed' : (u.enterRunning true).control.scrubOwed = u.control.scrubOwed := (congrArg Control.scrubOwed hset :)
    subst hu
    refine Station.startSound_of_started ((congrArg₂ (· || ·) hcold hwarm).trans hr) ?_ (hlock'.trans hlock)
      (hstraps ▸ hvalid) (howed'.trans howed) ?_ ?_ ?_
    · rw [hstate]; decide
    · simpa using hrun
    · rw [hstate]; simp
    · rw [hstraps]; simpa using h.divider

theorem Station.StartSound.takeHead {s : Station} {code : Nat} {decide : CmdEntry → Station → Option Station}
    (h : s.StartSound)
    (hd : ∀ e (u t : Station), u.StartSound → u.inReset = false → decide e u = some t → t.StartSound) :
    (s.takeHead code decide).StartSound := by
  rcases s.takeHead_cases code decide with e | ⟨e, rest, hf, -, -, he⟩
  · rwa [e]
  · have hr := h.inReset_of_cons hf
    have hu : ({ s with port.fifo := rest } : Station).StartSound :=
      h.of_startup rfl rfl fun hr' => by rw [hr] at hr'; cases hr'
    exact hd e _ _ hu hr he

theorem exec_keeps_startSound {c : Instr} {s t : State} (hd : Instr.isDeadlineRow c = false)
    (ha : s.station.DeadlinesActed) (hs : s.station.StartSound) (h : exec c s = .next t) : t.station.StartSound := by
  cases hc : Instr.touchesStartup c with
  | false =>
    have hne : c ≠ .coldReset ∧ c ≠ .warmReset ∧ c ≠ .start ∧ c ≠ .scrubWriteDone := by
      refine ⟨?_, ?_, ?_, ?_⟩ <;> rintro rfl <;> cases hc
    refine hs.of_startup (exec_startup hd hc ha h) (exec_scrub hd hne ha h) fun hr hf => ?_
    by_cases hw : ∃ bytes value, c = .commandWordWrite bytes value
    · obtain ⟨bytes, value, rfl⟩ := hw
      cases h
      dsimp only
      rw [Station.settled_of_acted ha, if_pos hr]
      exact hf
    · exact exec_fifo_nil hd h (fun bytes value e => hw ⟨bytes, value, e⟩) hf
  | true =>
    rw [← Station.settled_of_acted ha] at hs
    cases c with
    | coldReset => cases h; exact Station.startSound_of_config rfl rfl rfl rfl rfl
    | warmReset =>
      cases h
      dsimp only
      split
      · rename_i hcold
        obtain ⟨hst, hf⟩ := hs.pinned (by simp [Station.inReset, hcold])
        exact Station.startSound_of_config hst hf (hs.idle hst).1 (hs.idle hst).2 (hs.scrub_none (by rw [hst]; decide))
      · exact Station.startSound_of_config rfl rfl rfl rfl rfl
    | coldRelease =>
      cases h
      dsimp only
      split
      · rename_i hcold
        obtain ⟨hst, hf⟩ := hs.pinned (by simp [Station.inReset, hcold])
        exact Station.startSound_of_config hst hf (hs.idle hst).1 (hs.idle hst).2 (hs.scrub_none (by rw [hst]; decide))
      · exact hs
    | warmRelease =>
      cases h
      refine ⟨fun hr => hs.pinned ?_, hs.started, hs.idle, hs.scrubbing, hs.divider⟩
      have hcold : s.station.settled.control.coldPin = true := by simpa [Station.inReset] using hr
      simp [Station.inReset, hcold]
    | poolSet =>
      cases h
      exact hs.takeHead (decide := fun e t => some (t.decidePoolSet e)) fun e u t hu hr he => by
        cases he; exact hu.decidePoolSet hr e
    | start => cases h; exact hs.takeHead fun e u t hu hr he => hu.decideStart hr he
    | scrubWriteDone =>
      cases h
      dsimp only
      split
      · split
        · exact hs.scrubDone ‹_› _
        · exact hs
      · exact hs
    | leaseTick =>
      cases h
      dsimp only
      split
      · exact hs.advanceClock ‹_›
      · exact hs
    | _ => cases hc

/-- Settles O6. -/
theorem startUpStaysInAgreement : Obligations.StartUpStaysInAgreement := by
  intro s t hs h
  exact step_keeps (fun _ h => h) startSound_keptByDeadlines (fun _ _ h => h.refclkPeriod)
    (fun c s t hd ha hs h => exec_keeps_startSound hd ha hs h) hs h

end Sys2Proof.Machine
end

section
namespace Sys2Proof.Machine

/-! ### What may change pool table, lock and straps (R3, R5, R182) -/

/-- The rule of R3, R5 and R182 for a step with a command at the front that takes `s` to `t`. -/
structure Station.TableLockStrapsByRule (front : Option Instr) (s t : Station) : Prop where
  pools : t.control.pools ≠ s.control.pools →
    (front = some .coldReset ∧ ∀ b, t.poolOf b = 0) ∨
    (front = some .poolSet ∧ s.control.state = .config ∧ s.control.lock = false)
  lock : t.control.lock ≠ s.control.lock →
    (front = some .coldReset ∧ t.control.lock = false) ∨
    (front = some .start ∧ s.control.state = .config ∧ t.control.state ≠ .config ∧ t.control.lock = true)
  straps : t.control.straps ≠ s.control.straps →
    (front = some .coldReset ∧ t.control.coldPin = true ∧
      t.control.straps = strapsOf (Config.strapLevels s.control.strapReads)) ∨
    ∃ n c a k r, front = some (.coldRelease n c a k r) ∧ s.control.coldPin = true ∧ t.control.straps = ⟨n, c, a, k, r⟩

theorem Station.settled_settings (s : Station) : s.settled.control.settings = s.control.settings := by
  obtain ⟨⟨v, hv⟩, -⟩ := s.settled_parts
  rw [hv]
  rfl

section ByRule
variable {front : Option Instr} {s u t : Station}

theorem Station.TableLockStrapsByRule.of_same (hp : t.control.pools = s.control.pools)
    (hl : t.control.lock = s.control.lock) (hx : t.control.straps = s.control.straps) :
    s.TableLockStrapsByRule front t :=
  ⟨fun h => absurd hp h, fun h => absurd hl h, fun h => absurd hx h⟩

theorem Station.TableLockStrapsByRule.of_settings (h : t.control.settings = s.control.settings) :
    s.TableLockStrapsByRule front t := by
  obtain ⟨-, -, hx, -, hp, hl, -⟩ := Control.settings_eq h
  exact .of_same hp hl hx

/-- The rule reads only the settings of the station before. -/
theorem Station.TableLockStrapsByRule.congr (h : u.TableLockStrapsByRule front t)
    (e : u.control.settings = s.control.settings) : s.TableLockStrapsByRule front t := by
  obtain ⟨hc, -, hx, hst, hp, hl, -⟩ := Control.settings_eq e
  have hn : u.control.strapReads = s.control.strapReads := (congrArg Control.strapReads e :)
  obtain ⟨h1, h2, h3⟩ := h
  rw [hp, hst, hl] at h1
  rw [hl, hst] at h2
  rw [hx, hn, hc] at h3
  exact ⟨h1, h2, h3⟩

/-- A command of the command FIFO obeys the rule where its decision does. -/
theorem Station.TableLockStrapsByRule.takeHead {code : Nat} {decide : CmdEntry → Station → Option Station}
    (hd : ∀ e (x y : Station), decide e x = some y → x.TableLockStrapsByRule front y) :
    s.TableLockStrapsByRule front (s.takeHead code decide) := by
  rcases s.takeHead_cases code decide with e | ⟨e, rest, -, -, -, he⟩
  · rw [e]; exact .of_settings rfl
  · exact (hd e _ _ he).congr rfl

theorem Station.decidePoolSet_byRule (e : CmdEntry) (s : Station) :
    s.TableLockStrapsByRule (some .poolSet) (s.decidePoolSet e) := by
  unfold Station.decidePoolSet
  split
  · exact .of_settings rfl
  split
  · exact .of_settings rfl
  · rename_i hst hl
    exact ⟨fun _ => .inr ⟨rfl, by simpa using hst, by simpa using hl⟩, fun h => absurd rfl h, fun h => absurd rfl h⟩

theorem Station.decideStart_byRule {e : CmdEntry} (h : s.decideStart e = some t) :
    s.TableLockStrapsByRule (some .start) t := by
  unfold Station.decideStart at h
  split at h
  · cases h; exact .of_settings rfl
  · rename_i hst
    split at h
    · cases h
    split at h
    · cases h
      have hset := s.startTaken_settings
      have hp : s.startTaken.control.pools = s.control.pools := (congrArg Control.pools hset :)
      have hl : s.startTaken.control.lock = true := (congrArg Control.lock hset :)
      have hx : s.startTaken.control.straps = s.control.straps := (congrArg Control.straps hset :)
      have hst' : s.startTaken.control.state = if s.control.scrubOwed then .scrub else .running :=
        (congrArg Control.state hset :)
      refine ⟨fun h => absurd hp h, fun _ => .inr ⟨rfl, by simpa using hst, ?_, hl⟩, fun h => absurd hx h⟩
      rw [hst']
      split <;> decide
    · cases h; exact .of_settings rfl

end ByRule

theorem Station.scrubDone_byRule (front : Option Instr) (b : Nat) (s : Station) :
    s.TableLockStrapsByRule front (s.scrubDone b) := by
  unfold Station.scrubDone
  dsimp only
  split
  · exact .of_settings rfl
  · have hset := Station.enterRunning_settings true
      { s with index.table := s.index.table.scrubWrite b, index.scrub := none }
    exact .of_same (congrArg Control.pools hset :) (congrArg Control.lock hset :) (congrArg Control.straps hset :)

theorem exec_byRule {c : Instr} (hd : Instr.isDeadlineRow c = false) {s t : State} (h : exec c s = .next t) :
    s.station.settled.TableLockStrapsByRule (some c) t.station := by
  cases hc : Instr.touchesStartup c with
  | false =>
    rw [exec_settled hd] at h
    exact .of_settings (congrArg Prod.fst (exec_startup hd hc s.station.settled_acted h))
  | true =>
    cases c with
    | coldReset =>
      cases h
      exact ⟨fun _ => .inl ⟨rfl, fun _ => rfl⟩, fun _ => .inl ⟨rfl, rfl⟩,
        fun _ => .inl ⟨rfl, rfl, by simp [Control.assertCold, Control.coldReset]⟩⟩
    | warmReset =>
      cases h
      dsimp only
      split
      · exact .of_same rfl rfl rfl
      · exact .of_same (by simp [Control.assertWarm]) (by simp [Control.assertWarm]) (by simp [Control.assertWarm])
    | coldRelease n c a k r =>
      cases h
      dsimp only
      split
      · exact ⟨fun h => absurd rfl h, fun h => absurd rfl h, fun _ => .inr ⟨n, c, a, k, r, rfl, ‹_›, rfl⟩⟩
      · exact .of_settings rfl
    | warmRelease => cases h; exact .of_same rfl rfl rfl
    | poolSet =>
      cases h
      exact .takeHead (decide := fun e t => some (t.decidePoolSet e)) fun e x y he => by
        cases he; exact x.decidePoolSet_byRule e
    | start => cases h; exact .takeHead fun e x y he => Station.decideStart_byRule he
    | scrubWriteDone =>
      cases h
      dsimp only
      split
      · split
        · exact Station.scrubDone_byRule _ _ _
        · exact .of_settings rfl
      · exact .of_settings rfl
    | leaseTick =>
      cases h
      dsimp only
      split <;> exact .of_settings rfl
    | _ => cases hc

/-- Settles O14. -/
theorem poolTableLockAndStrapsChangeByRule : Obligations.PoolTableLockAndStrapsChangeByRule := by
  intro s t h
  suffices hr : s.station.TableLockStrapsByRule s.front t.station from ⟨hr.pools, hr.lock, hr.straps⟩
  obtain ⟨x, pending⟩ := s
  cases pending with
  | nil =>
    cases h
    exact .of_settings ((congrArg Control.settings x.settled.refclkPeriod_blocks.1).trans x.settled_settings)
  | cons c rest =>
    cases hd : Instr.isDeadlineRow c with
    | false => exact (exec_byRule hd h).congr x.settled_settings
    | true =>
      rcases exec_deadlineRow hd h with e | ⟨d, -, ds, e⟩ <;> rw [e]
      · exact .of_settings rfl
      · exact .of_settings (Station.actDeadline_settings d _)

end Sys2Proof.Machine
end

section
namespace Sys2Proof.Machine

/-! ### Keys, owners, buckets (R8, R9) -/

theorem size_pos {size : BitVec 4} (h : size ≠ 0) : 0 < size.toNat :=
  Nat.pos_of_ne_zero fun h0 => h (BitVec.eq_of_toNat_eq (by simpa using h0))

theorem ownerOf_toNat {size : BitVec 4} (h : size ≠ 0) (fp : Fingerprint) :
    (ownerOf size fp).toNat = fp.toNat / 2 ^ 120 % size.toNat := by
  have hbin : (binOf fp).toNat = fp.toNat / 2 ^ 120 := by
    have := fp.isLt
    rw [binOf, BitVec.extractLsb'_toNat, Nat.shiftRight_eq_div_pow]
    exact Nat.mod_eq_of_lt (by omega)
  have hlt : fp.toNat / 2 ^ 120 % size.toNat < 2 ^ 4 := (Nat.mod_lt _ (size_pos h)).trans size.isLt
  rw [ownerOf, hbin, BitVec.toNat_ofNat, Nat.mod_eq_of_lt hlt]

theorem bucketIndex_eq (k : Key) : bucketIndex k = fp19 k.fp ^^^ (k.pool.toNat * 32768) := by
  have hp : k.pool.toNat < 16 := k.pool.isLt
  rw [bucketIndex, BitVec.toNat_xor, BitVec.extractLsb'_toNat, Nat.shiftRight_eq_div_pow, fp19, BitVec.toNat_shiftLeft,
    BitVec.toNat_setWidth, Nat.shiftLeft_eq]
  congr 1
  omega

theorem bucketIndex_lt (k : Key) : bucketIndex k < 524288 := BitVec.isLt _

/-- The pool's bits are added by exclusive-or, which undoes itself (R9). -/
theorem bucketIndex_pool_injective {fp : Fingerprint} {p q : Pool} (h : bucketIndex ⟨p, fp⟩ = bucketIndex ⟨q, fp⟩) :
    p = q := by
  rw [bucketIndex_eq, bucketIndex_eq] at h
  have := Nat.xor_right_inj.1 h
  exact BitVec.eq_of_toNat_eq (by simpa using this)

/-! ### Well-formed buckets (R16) -/

theorem pool_le_iff {p : Pool} : p.toNat ≤ 14 ↔ p ≠ 15 := by
  rw [ne_eq, ← BitVec.toNat_inj]
  have := p.isLt
  change p.toNat ≤ 14 ↔ ¬p.toNat = 15
  omega

theorem count_pos_iff {c : BitVec 16} : 1 ≤ c.toNat ↔ c ≠ 0 := by
  rw [ne_eq, ← BitVec.toNat_inj]
  change 1 ≤ c.toNat ↔ ¬c.toNat = 0
  omega

/-- The conditions of R16 on the places of bucket `b`, apart from the check code. -/
structure PlacesSound (b : Nat) (ps : Vector Place 8) : Prop where
  empty : ∀ i : Fin 8, ps[i].used = false → ps[i] = {}
  entry : ∀ i : Fin 8, ps[i].used = true →
    ps[i].pool ≠ 15 ∧ ps[i].locator ≠ 0 ∧ ps[i].count ≠ 0 ∧ bucketIndex ps[i].key = b
  distinct : ∀ i j : Fin 8, ps[i].used = true → ps[j].used = true → ps[i].key = ps[j].key → i = j

theorem Place.wellFormed_iff (b : Nat) (p : Place) : p.wellFormed b = true ↔
    (p.used = false → p = {}) ∧
      (p.used = true → p.pool ≠ 15 ∧ p.locator ≠ 0 ∧ p.count ≠ 0 ∧ bucketIndex p.key = b) := by
  unfold Place.wellFormed
  cases p.used <;> simp [and_assoc]

theorem placesKeys_nodup_iff (ps : Vector Place 8) : (placesKeys ps).Nodup ↔
    ∀ i j : Fin 8, ps[i].used = true → ps[j].used = true → ps[i].key = ps[j].key → i = j := by
  unfold placesKeys List.Nodup
  rw [List.pairwise_map, List.pairwise_filter, List.pairwise_iff_getElem]
  constructor
  · intro h i j hi hj hk
    by_contra hne
    rcases lt_or_gt_of_ne hne with hij | hij
    · exact h i j (by simp) (by simp) hij hi hj hk
    · exact h j i (by simp) (by simp) hij hj hi hk.symm
  · intro h i j hi hj hij hui huj hk
    have := h ⟨i, by simpa using hi⟩ ⟨j, by simpa using hj⟩ hui huj hk
    exact absurd (congrArg Fin.val this) (Nat.ne_of_lt hij)

theorem Bucket.wellFormed_iff (b : Nat) (k : Bucket) :
    k.wellFormed b = true ↔ k.code = crc16 (placesBits k.places) ∧ PlacesSound b k.places := by
  have hall : k.places.toList.all (Place.wellFormed b) = true ↔ ∀ i : Fin 8, k.places[i].wellFormed b = true := by
    rw [List.all_eq_true]
    constructor
    · exact fun h i => h _ (by simp)
    · intro h p hp
      obtain ⟨i, hi, rfl⟩ := List.getElem_of_mem hp
      exact h ⟨i, by simpa using hi⟩
  unfold Bucket.wellFormed
  rw [Bool.and_eq_true, Bool.and_eq_true, beq_iff_eq, decide_eq_true_iff, hall, placesKeys_nodup_iff]
  simp only [Place.wellFormed_iff]
  constructor
  · rintro ⟨⟨hc, hp⟩, hd⟩
    exact ⟨hc, fun i => (hp i).1, fun i => (hp i).2, hd⟩
  · rintro ⟨hc, he, hu, hd⟩
    exact ⟨⟨hc, fun i => ⟨he i, hu i⟩⟩, hd⟩

/-! ### The check code (R17, R136) -/

theorem crc16_append (bits : List Bool) (x : Bool) : crc16 (bits ++ [x]) = crcBit (crc16 bits) x := by
  simp [crc16]

theorem crcBit_eq (r : BitVec 16) (x : Bool) : crcBit r x =
    BitVec.ofNat 16 (2 * r.toNat) ^^^ (if r.toNat.testBit 15 = x then 0 else BitVec.ofNat 16 (2 ^ 12 + 2 ^ 5 + 1)) := by
  have hshift : r <<< 1 = BitVec.ofNat 16 (2 * r.toNat) := BitVec.eq_of_toNat_eq (by
    simp [Nat.shiftLeft_eq, Nat.mul_comm])
  have hmsb : r.msb = r.toNat.testBit 15 := by simp [BitVec.msb_eq_getLsbD_last, BitVec.getLsbD]
  unfold crcBit
  rw [hshift, hmsb]
  by_cases h : r.toNat.testBit 15 = x <;> simp [h]

theorem bitsOf_eq_cellsOf {w : Nat} (x : BitVec w) : bitsOf x = cellsOf w x.toNat := by
  unfold bitsOf cellsOf
  refine List.map_congr_left fun i hi => ?_
  have hi : i < w := List.mem_range.1 hi
  simp [BitVec.getMsbD, BitVec.getLsbD, hi]

theorem Place.bits_eq (p : Place) : p.bits =
    p.used :: (cellsOf 4 p.pool.toNat ++ cellsOf 128 p.fp.toNat ++ cellsOf 48 p.locator.toNat ++ cellsOf 16 p.count.toNat) := by
  simp only [Place.bits, bitsOf_eq_cellsOf]

theorem Place.bits_length (p : Place) : p.bits.length = 197 := by
  simp [Place.bits_eq, cellsOf]

theorem placesBits_eq (ps : Vector Place 8) : placesBits ps =
    ps[0].bits ++ ps[1].bits ++ ps[2].bits ++ ps[3].bits ++ ps[4].bits ++ ps[5].bits ++ ps[6].bits ++ ps[7].bits := by
  have : ps.toList = [ps[0], ps[1], ps[2], ps[3], ps[4], ps[5], ps[6], ps[7]] :=
    List.ext_getElem (by simp) fun i h1 h2 => by
      have : i < 8 := by simpa using h1
      interval_cases i <;> simp
  simp [placesBits, this]

/-- Settles O34. -/
theorem keysAndBucketsFollowTheirRules : Obligations.KeysAndBucketsFollowTheirRules := by
  refine ⟨fun size fp h => ?_, fun k => ⟨bucketIndex_eq k, bucketIndex_lt k⟩,
    fun fp p q hne h => hne (bucketIndex_pool_injective h), fun b k => ?_, rfl, fun bits x => ?_, Place.bits_eq,
    fun ps => ⟨?_, placesBits_eq ps⟩⟩
  · exact ⟨ownerOf_toNat h fp, ownerOf_toNat h fp ▸ Nat.mod_lt _ (size_pos h)⟩
  · rw [Bucket.wellFormed_iff]
    refine and_congr_right fun _ => ⟨fun h => ⟨h.empty, fun i hi => ?_, fun i j hi hj hp hf => ?_⟩, fun ⟨he, hu, hd⟩ =>
      ⟨he, fun i hi => ?_, fun i j hi hj hk => ?_⟩⟩
    · obtain ⟨hp, hl, hc, hb⟩ := h.entry i hi
      exact ⟨pool_le_iff.2 hp, hl, count_pos_iff.2 hc, hb⟩
    · exact h.distinct i j hi hj (congrArg₂ Key.mk hp hf)
    · obtain ⟨hp, hl, hc, hb⟩ := hu i hi
      exact ⟨pool_le_iff.1 hp, hl, count_pos_iff.1 hc, hb⟩
    · exact hd i j hi hj (congrArg Key.pool hk) (congrArg Key.fp hk)
  · exact (crc16_append bits x).trans (crcBit_eq _ x)
  · simp [placesBits_eq, Place.bits_length]

end Sys2Proof.Machine
end

section
namespace Sys2Proof.Machine

/-! ### The head of the command FIFO taken (R170, R171) -/

/-- The code of a header is its low byte, the argument count its bits 12..8 (R169). -/
theorem CmdEntry.code_toNat (e : CmdEntry) : e.code.toNat = e.header.toNat % 256 := by
  simp [CmdEntry.code]

theorem CmdEntry.count_eq (e : CmdEntry) : e.count = e.header.toNat / 256 % 32 := by
  simp [CmdEntry.count, Nat.shiftRight_eq_div_pow]

theorem Station.HeadIs.isCommand {s : Station} {code : Nat} {e : CmdEntry} {rest : List CmdEntry}
    (h : s.HeadIs code e rest) : e.isCommand code = true := by
  have hcode : e.code.toNat = code := e.code_toNat.trans h.kind
  simp [CmdEntry.isCommand, CmdEntry.known, hcode, h.count, e.count_eq]

/-- A known entry at the head is decided; a command that must wait stays. -/
theorem Station.HeadIs.takeHead_eq {s : Station} {code : Nat} {e : CmdEntry} {rest : List CmdEntry}
    (h : s.HeadIs code e rest) (decide : CmdEntry → Station → Option Station) :
    s.takeHead code decide = (decide e (s.popped rest)).getD s := by
  unfold Station.takeHead
  rw [h.head]
  exact if_pos (by simp [h.free, h.isCommand])

/-! ### POOL_SET (R4, Table 1.1) -/

theorem exec_poolSet_eq {s : Station} (ha : s.DeadlinesActed) {e : CmdEntry} {rest : List CmdEntry}
    (h : s.HeadIs 1 e rest) (q : List Instr) :
    exec .poolSet ⟨s, q⟩ = .next ⟨(s.popped rest).decidePoolSet e, q⟩ := by
  have he : exec .poolSet ⟨s, q⟩ = .next ⟨s.settled.takeHead 1 fun e t => some (t.decidePoolSet e), q⟩ := rfl
  rw [he, Station.settled_of_acted ha, h.takeHead_eq]
  rfl

/-- The entry of the branch written is the pool, and every other stays. -/
theorem Station.poolOf_setPool (branch b : Branch) (pool : Pool) (s : Station) :
    (s.setPool branch pool).poolOf b = if b = branch then pool else s.poolOf b := by
  unfold Station.poolOf Station.setPool
  split
  · subst b; exact cellsRead_write_self
  · exact cellsRead_write_other fun h => ‹¬b = branch› (BitVec.eq_of_toNat_eq h)

theorem CmdEntry.poolSetBranch_eq (e : CmdEntry) : e.poolSetBranch = (e.arg 0).extractLsb' 0 12 := by
  ext i
  simp [CmdEntry.poolSetBranch]

/-- Settles O22. -/
theorem poolSetByStateAndLock : Obligations.PoolSetByStateAndLock := by
  intro s ha q e rest hhead
  rw [exec_poolSet_eq ha hhead]
  refine ⟨fun hst hl => ?_, fun hst hl => ?_, fun hst => ?_⟩
  · have hd : (s.popped rest).decidePoolSet e = (s.popped rest).setPool e.poolSetBranch e.poolSetPool :=
      (if_neg (not_not_intro hst)).trans (if_neg (by simp [Station.popped, hl]))
    rw [hd]
    refine ⟨_, rfl, rfl, fun b => ?_⟩
    rw [Station.poolOf_setPool, CmdEntry.poolSetBranch_eq]
    rfl
  · have hd : (s.popped rest).decidePoolSet e = (s.popped rest).refuse e 0 .locked :=
      (if_neg (not_not_intro hst)).trans (if_pos hl)
    rw [hd]
    rfl
  · have hd : (s.popped rest).decidePoolSet e = (s.popped rest).refuse e 0 .badState := if_pos hst
    rw [hd]
    rfl

/-! ### The digest engine (R1, R7, R68, R109, R110, R116) -/

theorem Station.serving_iff (p : StationNo) (s : Station) : s.serving p = true ↔ s.Serves p := by
  unfold Station.serving Station.Serves Station.own
  split <;> simp_all [Station.running]

theorem Reason.counter_index (r : Reason) : r.counter.index = r.statsWord := by
  cases r <;> rfl

/-- The model's unindexed store is that of the statements. -/
theorem Station.storeUnindexed_eq (r : Reason) (b : Option Binding) (s : Station) :
    s.storeUnindexed r b = s.slotUnindexed r b := by
  change (s.moveSlot b (Slot.toStoring (some r))).counted r.counter.index = _
  rw [Reason.counter_index]
  rfl

theorem Station.pool_moveSlot {b : Option Binding} {f : Slot → Slot} {s : Station} (l : LaneNo) :
    ((s.moveSlot b f).laneAt l).pool = (s.laneAt l).pool := by
  cases b with
  | none => rfl
  | some b =>
    rw [Station.moveSlot, Station.laneAt_mapLane]
    split <;> rfl

/-! The three ends of the owner check (R68). -/

section LookupCheck
variable {lane : LaneNo} {seq : Word} {key : Key} {s : Station}

theorem Station.lookupCheck_isolated (h : key.pool = 15) :
    s.lookupCheck lane seq key = s.slotUnindexed .poolIsolated (some ⟨lane, seq⟩) :=
  (if_pos h).trans (Station.storeUnindexed_eq _ _ _)

theorem Station.lookupCheck_absent (h : key.pool ≠ 15)
    (hs : ¬s.Serves (ownerOf s.control.straps.clusterSize key.fp)) :
    s.lookupCheck lane seq key = s.slotUnindexed .ownerAbsent (some ⟨lane, seq⟩) :=
  (if_neg h).trans ((if_neg (mt (Station.serving_iff _ _).1 hs)).trans (Station.storeUnindexed_eq _ _ _))

theorem Station.lookupCheck_serving (h : key.pool ≠ 15)
    (hs : s.Serves (ownerOf s.control.straps.clusterSize key.fp)) :
    s.lookupCheck lane seq key = { s.moveSlot (some ⟨lane, seq⟩) (Slot.enter .lookup) with
      exchange := { s.exchange with waitQueue :=
        s.exchange.waitQueue ++ [.lookup lane seq key (ownerOf s.control.straps.clusterSize key.fp)] } } :=
  (if_neg h).trans (if_pos ((Station.serving_iff _ _).2 hs))

end LookupCheck

/-- The owner check of a slot just digested (R68), the key formed with the lane's pool. -/
theorem exec_digestCompletion_eq {s : Station} (ha : s.DeadlinesActed) {d : DigestEntry}
    (hj : s.chunker.engine = some ⟨d, false⟩) (q : List Instr) : exec .digestCompletion ⟨s, q⟩ =
      .next ⟨(({ s with chunker.engine := none } : Station).moveSlot (some ⟨d.lane, d.seq⟩) fun x =>
        { x with fp := some (Config.fingerprint d.absorbed.reverse) }).lookupCheck d.lane d.seq
          ⟨(s.laneAt d.lane).pool, Config.fingerprint d.absorbed.reverse⟩, q⟩ := by
  have he : exec .digestCompletion ⟨s, q⟩ = .next ⟨({ s with chunker.engine := none } : Station).digestDone d, q⟩ := by
    simp [exec, execDigestCompletion, Station.settled_of_acted ha, hj]
  rw [he, Station.digestDone, Station.pool_moveSlot]
  rfl

/-- Settles O60. -/
theorem digestsLeadToLookups : Obligations.DigestsLeadToLookups := by
  intro s ha q
  refine ⟨fun d ds he hd => ?_, fun h => ?_, fun d he => ?_, fun d bytes he hb => ?_⟩
  · simp [exec, execDigestStart, Station.settled_of_acted ha, he, hd]
  · have hidle : ∀ d ds, s.chunker.engine = none → s.chunker.digests = d :: ds → False := fun d ds he hd => by
      rcases h with h | h
      · exact h he
      · rw [hd] at h; cases h
    simp only [exec, execDigestStart, runEvent_eq, Station.settled_of_acted ha]
  · simp [exec, execDigestCompletion, Station.settled_of_acted ha, he]
  · subst hb
    rw [exec_digestCompletion_eq ha he]
    generalize Config.fingerprint d.absorbed.reverse = fp
    dsimp only
    have hserves : ∀ p, (({ s with chunker.engine := none } : Station).moveSlot (some ⟨d.lane, d.seq⟩) fun x =>
        { x with fp := some fp }).Serves p ↔ s.Serves p := fun _ => Iff.rfl
    refine ⟨fun hp => ?_, fun hp hs => ?_, fun hp hs => ?_⟩
    · rw [Station.lookupCheck_isolated hp]
    · rw [Station.lookupCheck_absent (key := ⟨(s.laneAt d.lane).pool, fp⟩) hp (mt (hserves _).1 hs)]
    · rw [Station.lookupCheck_serving (key := ⟨(s.laneAt d.lane).pool, fp⟩) hp ((hserves _).2 hs)]
      rfl

end Sys2Proof.Machine
end

section
namespace Sys2Proof.Machine

/-! ### The searches of a bucket and of the claim table, in the words of the statements -/

theorem Place.key_eq_iff {p : Place} {key : Key} : p.key = key ↔ p.pool = key.pool ∧ p.fp = key.fp := by
  cases key
  simp [Place.key]

theorem findPlace_eq_some_iff {key : Key} {ps : Vector Place 8} {i : Fin 8} :
    findPlace key ps = some i ↔ HeldAt key ps i := by
  unfold findPlace HeldAt
  rw [lowestFind_eq_some]
  simp [Place.key_eq_iff]

theorem findPlace_eq_none_iff {key : Key} {ps : Vector Place 8} : findPlace key ps = none ↔ NotCommitted key ps := by
  rw [findPlace_eq_none]
  simp [NotCommitted, Place.key_eq_iff]

theorem emptyPlace_eq_some_iff {ps : Vector Place 8} {i : Fin 8} : emptyPlace ps = some i ↔ EmptyAt ps i := by
  unfold emptyPlace EmptyAt
  rw [lowestFind_eq_some]
  simp

theorem Station.claimOf_of_claimedAt {s : Station} {key : Key} {p : ClaimPos} {c : Claim} (h : s.ClaimedAt key p c) :
    s.claimOf key = some p := by
  obtain ⟨hc, hk, hlow⟩ := h
  unfold Station.claimOf
  rw [lowestFind_eq_some]
  refine ⟨by simp [hc, hk], fun j hj => ?_⟩
  cases hd : s.index.claims[j] with
  | none => rfl
  | some d => simpa using hlow j d hj hd

theorem Station.claimOf_eq_none_iff {s : Station} {key : Key} : s.claimOf key = none ↔ s.NotClaimed key :=
  Station.claimOf_eq_none

theorem Station.bucketSum_eq (b : Nat) (ps : Vector Place 8) (s : Station) : bucketSum b ps s = s.sumOf b ps := by
  unfold bucketSum Station.sumOf Station.claimsOn entryCount
  rw [List.countP_eq_length_filter, List.countP_eq_length_filter]
  congr 2

/-! ### A bucket operation on a well-formed bucket (R21 to R25, R40) -/

theorem Station.firstDue_eq_none {s : Station}
    (h : ∀ (p : ClaimPos) (c : Claim), s.index.claims[p] = some c → c.due = none) : s.firstDue = none := by
  have hnil : (List.finRange 128).filterMap s.dueAt = [] := by
    rw [List.filterMap_eq_nil_iff]
    intro p _
    unfold Station.dueAt
    cases hc : s.index.claims[p] with
    | none => rfl
    | some c => exact h p c hc
  unfold Station.firstDue
  rw [hnil]
  rfl

theorem Station.TakesItem.takesItem {s : Station} {item : WorkItem} {rest : List WorkItem} (h : s.TakesItem item rest) :
    s.takesItem = true :=
  Station.takesItem_iff.2
    ⟨Station.indexFree_iff.2 ⟨h.state, h.write, h.answers, h.ready⟩, Station.firstDue_eq_none h.due⟩

/-- The head item is taken by the command of its kind. -/
theorem Station.TakesItem.takeItem_eq {α : Type} {s : Station} {item : WorkItem} {rest : List WorkItem} {x : α}
    (h : s.TakesItem item rest) {select : WorkItem → Option α} (hx : select item = some x)
    (act : α → Station → Station) : s.takeItem select act = act x { s with index.queue := rest } := by
  unfold Station.takeItem
  rw [h.head]
  dsimp only
  rw [hx]
  exact if_pos h.takesItem

theorem Station.openBucket_of_opens {s : Station} {b : Nat} {ps : Vector Place 8} (h : s.Opens b ps) :
    s.openBucket b = ⟨ps, false, s⟩ := by
  obtain ⟨hwf, hps⟩ := h
  rw [Station.openBucket, if_pos hwf, hps]

/-- What a whole operation on a well-formed bucket leaves: the decision's claims and counts, its answers, and a write-back
of its places where they changed (R23). -/
theorem Station.bucketOperation_of_opens {s : Station} {b : Nat} {ps : Vector Place 8} (h : s.Opens b ps)
    (decide : BucketRead → Decision) : s.bucketOperation b decide =
      let d := decide ⟨ps, false, s⟩
      { d.station with
        index.write := if d.changed then writeOf b d.places else none
        index.answers := d.answers } := by
  unfold Station.bucketOperation
  rw [Station.openBucket_of_opens h]
  rfl

/-! ### COMMIT (R48 to R50) -/

/-- A COMMIT taken off the queue is decided on its key's bucket. -/
theorem exec_commit_eq {s : Station} (ha : s.DeadlinesActed) (q : List Instr) {x : Pair} {k : Key} {l : Locator}
    {rest : List WorkItem} {ps : Vector Place 8} (ht : s.TakesItem (.commit x k l) rest) (ho : s.Opens (bucketIndex k) ps) :
    exec .commit ⟨s, q⟩ =
      let d := decideCommit x k l ⟨ps, false, { s with index.queue := rest }⟩
      .next ⟨{ d.station with
        index.write := if d.changed then writeOf (bucketIndex k) d.places else none
        index.answers := d.answers }, q⟩ := by
  simp only [exec, execCommit, runEvent_eq, Station.settled_of_acted ha]
  rw [ht.takeItem_eq (x := (x, k, l)) rfl, Station.bucketOperation_of_opens (s := { s with index.queue := rest }) ho]

section DecideCommit
variable {x : Pair} {k : Key} {l : Locator} {r : BucketRead}

theorem decideCommit_isolated (h : k.pool = 15) :
    decideCommit x k l r = ⟨r.places, false, [⟨x, .commitReply .notIndexed⟩], r.station⟩ := if_pos h

theorem decideCommit_held {i : Fin 8} (h : k.pool ≠ 15) (hi : HeldAt k r.places i) :
    decideCommit x k l r = commitCommitted x l i r := by
  rw [decideCommit, if_neg h, findPlace_eq_some_iff.2 hi]

theorem decideCommit_claimed {p : ClaimPos} {c : Claim} (h : k.pool ≠ 15) (hn : NotCommitted k r.places)
    (hc : r.station.ClaimedAt k p c) : decideCommit x k l r = commitClaimed x k l p c r := by
  rw [decideCommit, if_neg h, findPlace_eq_none_iff.2 hn, Station.claimOf_of_claimedAt hc]
  dsimp only
  rw [hc.1]

theorem decideCommit_free (h : k.pool ≠ 15) (hn : NotCommitted k r.places) (hc : r.station.NotClaimed k) :
    decideCommit x k l r = commitAbsent x k l r := by
  rw [decideCommit, if_neg h, findPlace_eq_none_iff.2 hn, Station.claimOf_eq_none_iff.2 hc]

theorem commitAbsent_room (h : r.station.sumOf (bucketIndex k) r.places < 8) :
    commitAbsent x k l r = ⟨installPlace k l 1 r.places, true, [⟨x, .commitReply .indexed⟩], r.station⟩ :=
  if_pos ((Station.bucketSum_eq _ _ _).trans_lt h)

theorem commitAbsent_full (h : 8 ≤ r.station.sumOf (bucketIndex k) r.places) :
    commitAbsent x k l r = ⟨r.places, false, [⟨x, .commitReply .notIndexed⟩], r.station⟩ :=
  if_neg (Nat.not_lt.2 (h.trans_eq (Station.bucketSum_eq _ _ _).symm))

end DecideCommit

theorem raiseCount_pinned {i : Fin 8} {ps : Vector Place 8} (h : ps[i].count = 65535) : raiseCount i ps = (false, ps) :=
  if_pos h

/-- The count of the entry held for a key raised by one (R18). -/
theorem raiseCount_held {k : Key} {i : Fin 8} {ps : Vector Place 8} (hi : HeldAt k ps i) (h : ps[i].count ≠ 65535) :
    raiseCount i ps = (true, ps.set i ⟨true, k.pool, k.fp, ps[i].locator, ps[i].count + 1⟩) := by
  obtain ⟨⟨hu, hp, hf⟩, -⟩ := hi
  refine (if_neg h).trans (congrArg (Prod.mk true) (congrArg (ps.set i) ?_))
  rw [← hu, ← hp, ← hf]

theorem installPlace_emptyAt {k : Key} {l : Locator} {count : BitVec 16} {i : Fin 8} {ps : Vector Place 8}
    (h : EmptyAt ps i) : installPlace k l count ps = ps.set i ⟨true, k.pool, k.fp, l, count⟩ := by
  rw [installPlace, emptyPlace_eq_some_iff.2 h]

/-- The waiter list without the first occurrence of a pair. -/
theorem erase_eq_of_split {x : Pair} {waiters ws : List Pair}
    (h : x ∉ waiters ∧ ws = waiters ∨ ∃ a b, waiters = a ++ x :: b ∧ x ∉ a ∧ ws = a ++ b) : waiters.erase x = ws := by
  rcases h with ⟨hx, rfl⟩ | ⟨a, b, rfl, hx, rfl⟩
  · exact List.erase_of_not_mem hx
  · rw [List.erase_append_right _ hx, List.erase_cons_head]

/-- Settles O36. -/
theorem commitDecided : Obligations.CommitDecided := by
  intro s ha q x k l rest ps ht ho
  rw [exec_commit_eq ha q ht ho]
  refine ⟨fun hp => ?_, fun hp => ⟨fun i hi hl => ?_, fun i hi hl hc => ?_, fun i hi hl hc => ?_,
    fun p c i ws hn hc hi hws => ?_, fun i hn hc hi hs => ?_, fun hn hc hs => ?_⟩⟩
  · rw [decideCommit_isolated hp]
    rfl
  · rw [decideCommit_held hp hi, commitCommitted, if_pos hl]
    rfl
  · rw [decideCommit_held hp hi, commitCommitted, if_neg hl, raiseCount_pinned hc]
    rfl
  · rw [decideCommit_held hp hi, commitCommitted, if_neg hl, raiseCount_held hi hc]
    rfl
  · rw [decideCommit_claimed hp hn hc, commitClaimed, erase_eq_of_split hws, installPlace_emptyAt hi]
    rfl
  · rw [decideCommit_free hp hn hc, commitAbsent_room hs, installPlace_emptyAt hi]
    rfl
  · rw [decideCommit_free hp hn hc, commitAbsent_full hs]
    rfl

end Sys2Proof.Machine
end

section
namespace Sys2Proof.Machine

/-! ### No COMMITTING entry is under locator 0, and only such an entry sends COMMIT (R13, R78) -/

/-- What lets an entry send no COMMIT under locator 0: a COMMITTING entry has another one, and a COMMIT is the request of
a COMMITTING entry only. -/
structure Entry.CommitSound (e : Entry) : Prop where
  locator : e.state = .committing → e.locator.getD 0 ≠ 0
  request : ∀ ph, e.request = some (.commit, ph) → e.state = .committing

theorem Entry.Sound.commitSound {e : Entry} (h : e.Sound) (hl : e.state = .committing → e.locator.getD 0 ≠ 0) :
    e.CommitSound where
  locator := hl
  request ph hr := h.request _ ph hr

/-- In any other state an entry that asks for no COMMIT is sound. -/
theorem Entry.commitSound_of_ne {e : Entry} (hs : e.state ≠ .committing) (hr : ∀ ph, e.request ≠ some (.commit, ph)) :
    e.CommitSound where
  locator h := absurd h hs
  request ph h := absurd h (hr ph)

namespace Entry.CommitSound
variable {e : Entry}

/-- A change that keeps state and locator, and asks for a COMMIT only where one stood. -/
theorem of_same {e' : Entry} (h : e.CommitSound) (hs : e'.state = e.state) (hl : e'.locator = e.locator)
    (hr : ∀ ph, e'.request = some (.commit, ph) → ∃ ph', e.request = some (.commit, ph')) : e'.CommitSound where
  locator := by rw [hs, hl]; exact h.locator
  request ph hc := by
    obtain ⟨ph', h'⟩ := hr ph hc
    rw [hs]
    exact h.request ph' h'

/-- A change that also leaves no COMMIT to send. -/
theorem of_quiet {e' : Entry} (h : e.CommitSound) (hs : e'.state = e.state) (hl : e'.locator = e.locator)
    (hr : ∀ ph, e'.request ≠ some (.commit, ph)) : e'.CommitSound :=
  h.of_same hs hl fun ph hc => absurd hc (hr ph)

theorem freed : e.freed.CommitSound := Entry.commitSound_of_ne nofun nofun

theorem release (h : e.CommitSound) : e.release.CommitSound := by
  unfold Entry.release
  split
  · exact h.of_quiet rfl rfl nofun
  · exact freed

theorem closeOwing (h : e.CommitSound) (r : OwedReport) : (e.closeOwing r).CommitSound := h.of_quiet rfl rfl nofun

theorem closeDropping (h : e.CommitSound) : e.closeDropping.CommitSound := h.of_quiet rfl rfl nofun

theorem toOrphan (o : Origin) (now : Tick) : (e.toOrphan o now).CommitSound := Entry.commitSound_of_ne nofun nofun

theorem toCompensation (l : Locator) : (e.toCompensation l).CommitSound := Entry.commitSound_of_ne nofun nofun

theorem settle {x : EntryState} (hx : x ≠ .committing) : (e.settle x).CommitSound := Entry.commitSound_of_ne hx nofun

theorem abortBound (h : e.CommitSound) (now : Tick) : (e.abortBound now).CommitSound := by
  unfold Entry.abortBound
  cases e.state with
  | asking =>
    dsimp only
    split
    · exact freed
    · exact toOrphan _ _
  | committing =>
    dsimp only
    split
    · exact h.closeOwing _
    · exact toOrphan _ _
  | holding => exact toOrphan _ _
  | storing => exact h.closeDropping
  | resolved => exact toCompensation _
  | free | releasing | orphan => exact h

/-- An entry that has no deadline left, and its request as it was. -/
theorem noDeadline (h : e.CommitSound) : ({ e with deadline := none } : Entry).CommitSound :=
  h.of_same rfl rfl fun ph hr => ⟨ph, hr⟩

/-- The phase of a request changed. -/
theorem rephase (h : e.CommitSound) {k : RequestKind} {ph ph' : Phase} {b : Bool} {n : Nat}
    {d : Option (DeadlineSort × Tick)} (hr : e.request = some (k, ph)) :
    ({ e with request := some (k, ph'), ackedOnce := b, attempts := n, deadline := d } : Entry).CommitSound :=
  h.of_same rfl rfl fun _ hc => ⟨ph, by rw [hr, show k = .commit by cases hc; rfl]⟩

theorem acknowledged (h : e.CommitSound) {k : RequestKind} {ph : Phase} (hr : e.request = some (k, ph)) (now : Tick) :
    (e.acknowledged k now).CommitSound := h.rephase hr

theorem handedOn (h : e.CommitSound) {k : RequestKind} {ph : Phase} (hr : e.request = some (k, ph)) (ph' : Phase) :
    (e.handedOn k ph').CommitSound := by
  unfold Entry.handedOn
  split
  · exact freed
  · exact h.rephase hr

theorem reportMade (h : e.CommitSound) : e.reportMade.CommitSound := by
  unfold Entry.reportMade
  split
  · exact freed
  · exact h.of_same rfl rfl fun ph hr => ⟨ph, hr⟩

end Entry.CommitSound

theorem Entry.grantLookup_commitSound (l : LaneNo) (q : Word) (k : Key) (o : StationNo) (e : Entry) :
    (e.grantLookup l q k o).CommitSound := Entry.commitSound_of_ne nofun nofun

theorem Entry.grantRelease_commitSound (k : Key) (l : Locator) (c : Cookie) (o : StationNo) (v : Bool) (e : Entry) :
    (e.grantRelease k l c o v).CommitSound := by
  cases v <;> exact Entry.commitSound_of_ne nofun nofun

/-- Every entry is sound in this. -/
def Station.EntriesCommit (s : Station) : Prop := ∀ i, (s.entry i).CommitSound

theorem Station.entriesCommit_reset {s : Station} (h : s.exchange = Exchange.reset) : s.EntriesCommit := fun i => by
  have : s.entry i = {} := by simp [Station.entry, h, Exchange.reset]
  rw [this]
  exact Entry.commitSound_of_ne nofun nofun

namespace Station.EntriesCommit
variable {s t : Station}

theorem of_entries (h : s.EntriesCommit) (e : t.exchange.entries = s.exchange.entries) : t.EntriesCommit := fun i => by
  have : t.entry i = s.entry i := congrArg (·[i]) e
  rw [this]
  exact h i

theorem of_exchange (h : s.EntriesCommit) (e : t.exchange = s.exchange) : t.EntriesCommit := h.of_entries (by rw [e])

theorem setEntry (h : s.EntriesCommit) {i : EntryIndex} {e : Entry} (he : e.CommitSound)
    (ht : t.exchange = s.exchange := by simp) : (t.setEntry i e).EntriesCommit := fun j => by
  rw [Station.entry_setEntry]
  split
  · exact he
  · exact h.of_exchange ht j

theorem exhaust (h : s.EntriesCommit) (i : EntryIndex) : (s.exhaust i).EntriesCommit := by
  unfold Station.exhaust
  dsimp only
  split
  · exact h.setEntry (.toOrphan _ _)
  · exact h.setEntry (.toOrphan _ _)
  · exact h

theorem attemptFailed (h : s.EntriesCommit) (i : EntryIndex) : (s.attemptFailed i).EntriesCommit := by
  unfold Station.attemptFailed
  dsimp only
  split
  · refine h.setEntry ((h i).of_same rfl rfl fun ph hr => ?_)
    obtain ⟨⟨k, ph'⟩, hq, hk⟩ := Option.map_eq_some_iff.1 hr
    cases hk
    exact ⟨ph', hq⟩
  · exact h.exhaust i

theorem giveUp (h : s.EntriesCommit) (o : ReleasedOutcome) (i : EntryIndex) : (s.giveUp o i).EntriesCommit := by
  unfold Station.giveUp
  dsimp only
  split
  · exact h.setEntry ((h i).closeOwing _)
  · exact h.setEntry (h i).release
  · exact h

theorem takeKnown (h : s.EntriesCommit) (i : EntryIndex) (l : Locator) : (s.takeKnown i l).EntriesCommit :=
  h.setEntry (Entry.commitSound_of_ne nofun nofun)

theorem takeWrite (h : s.EntriesCommit) (i : EntryIndex) : (s.takeWrite i).EntriesCommit :=
  h.setEntry (.settle nofun)

theorem answerAsking (h : s.EntriesCommit) {i : EntryIndex} {a : AnswerBody} :
    s.answerAsking i a = some t → t.EntriesCommit := by
  unfold Station.answerAsking
  rcases a.asVerdict with _ | (_ | _ | _ | _) <;> rintro ⟨⟩
  case known => exact h.takeKnown i _
  case write => exact h.takeWrite i
  case hold => exact h.setEntry (Entry.commitSound_of_ne nofun nofun)
  case noindex => exact h.setEntry (h i).release

theorem answerHolding (h : s.EntriesCommit) {i : EntryIndex} {a : AnswerBody} :
    s.answerHolding i a = some t → t.EntriesCommit := by
  unfold Station.answerHolding
  rcases a.asVerdict with _ | (_ | _ | _ | _) <;> rintro ⟨⟩
  case known => exact h.takeKnown i _
  case write => exact h.takeWrite i

theorem answerCommitting (h : s.EntriesCommit) {i : EntryIndex} {a : AnswerBody} :
    s.answerCommitting i a = some t → t.EntriesCommit := by
  unfold Station.answerCommitting
  rcases a with _ | _ | (_ | _ | _) | _ <;> rintro ⟨⟩
  case indexed => exact h.setEntry (.settle nofun)
  case superseded => exact h.setEntry (Entry.commitSound_of_ne nofun nofun)
  case notIndexed => exact h.setEntry (h i).release

theorem answerReleasing (h : s.EntriesCommit) {i : EntryIndex} {a : AnswerBody} :
    s.answerReleasing i a = some t → t.EntriesCommit := by
  unfold Station.answerReleasing
  rcases a with _ | _ | _ | o
  iterate 3 rintro ⟨⟩
  dsimp only
  cases (s.entry i).kind with
  | askExchange => rintro ⟨⟩
  | hostRelease => rintro ⟨⟩; exact h.setEntry ((h i).closeOwing _)
  | compensation =>
    cases o <;> rintro ⟨⟩
    case retired => exact h.setEntry ((h i).closeOwing _)
    all_goals exact h.setEntry (h i).release

theorem answerAskOrphan (h : s.EntriesCommit) {i : EntryIndex} {held : Bool} {a : AnswerBody} :
    s.answerAskOrphan i held a = some t → t.EntriesCommit := by
  unfold Station.answerAskOrphan
  rcases a.asVerdict with _ | (_ | _ | _ | _)
  case none => rintro ⟨⟩
  case known => rintro ⟨⟩; exact h.setEntry (.toCompensation _)
  case write => rintro ⟨⟩; exact h.setEntry (h i).closeDropping
  case hold => cases held <;> rintro ⟨⟩; exact h.setEntry (.toOrphan _ _)
  case noindex => cases held <;> rintro ⟨⟩; exact h.setEntry (h i).release

theorem answerCommitOrphan (h : s.EntriesCommit) {i : EntryIndex} {aborted : Bool} {a : AnswerBody} :
    s.answerCommitOrphan i aborted a = some t → t.EntriesCommit := by
  unfold Station.answerCommitOrphan
  rcases a with _ | _ | (_ | _ | _) | _ <;> rintro ⟨⟩ <;> refine h.setEntry ?_ <;> cases aborted
  case indexed.false | notIndexed.false => exact (h i).release
  case indexed.true | superseded.false => exact .toCompensation _
  case superseded.true => exact Entry.commitSound_of_ne nofun nofun
  case notIndexed.true => exact (h i).closeOwing _

theorem answerEntry (h : s.EntriesCommit) {i : EntryIndex} {a : AnswerBody} :
    s.answerEntry i a = some t → t.EntriesCommit := by
  unfold Station.answerEntry
  split
  · exact h.answerAsking
  · exact h.answerHolding
  · exact h.answerCommitting
  · exact h.answerReleasing
  · exact h.answerAskOrphan
  · exact h.answerAskOrphan
  · exact h.answerCommitOrphan
  · exact h.answerCommitOrphan
  all_goals rintro ⟨⟩

theorem bump (h : s.EntriesCommit) (c : Counter) : (s.bump c).EntriesCommit := h.of_exchange rfl

theorem takeAnswer (h : s.EntriesCommit) (g : Tag) (a : AnswerBody) : (s.takeAnswer g a).EntriesCommit := by
  unfold Station.takeAnswer
  split
  · cases ha : s.answerEntry (tagIndex g) a with
    | none => exact h.bump _
    | some t => exact h.answerEntry ha
  · exact h.bump _

theorem sendFailed (h : s.EntriesCommit) (k : RequestKind) (i : EntryIndex) : (s.sendFailed k i).EntriesCommit := by
  cases k with
  | ask | commit => exact h.attemptFailed i
  | release => exact h.giveUp _ i
  | drop => exact h

theorem takeOutcome (h : s.EntriesCommit) (k : RequestKind) (g : Tag) (a : Bool) :
    (s.takeOutcome k g a).EntriesCommit := by
  unfold Station.takeOutcome
  dsimp only
  split
  · rename_i hc
    have hr : (s.entry (tagIndex g)).request = some (k, .sent) := by
      simp only [Bool.and_eq_true, beq_iff_eq] at hc
      exact hc.2
    split
    · exact h.setEntry ((h _).acknowledged hr _)
    · exact h.sendFailed _ _
  · exact h

theorem answerExpired (h : s.EntriesCommit) (i : EntryIndex) : (s.answerExpired i).EntriesCommit := by
  have hq : (s.setEntry i { s.entry i with deadline := none }).EntriesCommit := h.setEntry (h i).noDeadline
  unfold Station.answerExpired
  dsimp only
  split
  · exact hq.attemptFailed i
  · exact hq.attemptFailed i
  · exact hq.giveUp _ i
  · exact hq

theorem holdExpired (h : s.EntriesCommit) (i : EntryIndex) : (s.holdExpired i).EntriesCommit := by
  unfold Station.holdExpired
  dsimp only
  split
  · exact h.setEntry (.toOrphan _ _)
  · exact h.setEntry (h i).noDeadline

theorem orphanExpired (h : s.EntriesCommit) (i : EntryIndex) : (s.orphanExpired i).EntriesCommit := by
  unfold Station.orphanExpired
  dsimp only
  split
  · exact h.setEntry ((h i).closeOwing _)
  · exact h.setEntry (h i).release
  · exact h.setEntry (h i).noDeadline

theorem entryExpired (h : s.EntriesCommit) (i : EntryIndex) : (s.entryExpired i).EntriesCommit := by
  unfold Station.entryExpired Station.expireEntry
  (repeat' split)
  · exact h.answerExpired i
  · exact h.holdExpired i
  · exact h.orphanExpired i
  · exact h
  · exact h

theorem cleanLost (h : s.EntriesCommit) (i : EntryIndex) : (s.cleanLost i).EntriesCommit := by
  unfold Station.cleanLost
  dsimp only
  split
  · exact h.setEntry (h i).release
  split
  · exact h.setEntry (h i).release
  · exact h.setEntry (h i).release
  · exact h.setEntry (h i).release
  · exact h.giveUp _ i
  · exact h.setEntry ((h i).closeOwing _)
  · exact h.setEntry (h i).release
  all_goals exact h

theorem cleanRestarted (h : s.EntriesCommit) (i : EntryIndex) : (s.cleanRestarted i).EntriesCommit := by
  unfold Station.cleanRestarted
  dsimp only
  split
  · exact h.setEntry (h i).release
  (repeat' split)
  · exact h.setEntry (h i).release
  · exact h.setEntry (h i).release
  · exact h.sendFailed _ i
  · exact h
  · exact h.sendFailed _ i
  · exact h
  · exact h.setEntry ((h i).closeOwing _)
  · exact h.setEntry (h i).release
  all_goals exact h

theorem cleanExchange (h : s.EntriesCommit) (r : Bool) (p : StationNo) : (s.cleanExchange r p).EntriesCommit := by
  unfold Station.cleanExchange
  refine List.foldlRecOn _ _ h fun u hu i _ => ?_
  unfold Station.cleanEntry
  split
  · cases r with
    | true => exact hu.cleanRestarted i
    | false => exact hu.cleanLost i
  · exact hu

theorem abortExchange (h : s.EntriesCommit) (l : LaneNo) : (s.abortExchange l).EntriesCommit := by
  unfold Station.abortExchange
  refine List.foldlRecOn (motive := Station.EntriesCommit) _ _ (h.of_entries rfl) fun u hu q _ => ?_
  unfold Station.abortSlot
  split
  · exact hu.setEntry ((hu _).abortBound _)
  · exact hu

theorem abortLane (h : s.EntriesCommit) (l : LaneNo) (r : AbortReason) : (s.abortLane l r).EntriesCommit :=
  (h.abortExchange l).of_exchange rfl

theorem storedSlot (h : s.EntriesCommit) (b : Binding) (r : Option Reason) {l : Locator} (hl : l ≠ 0) :
    (s.storedSlot b r l).EntriesCommit := by
  unfold Station.storedSlot Station.commitBound
  have hm (f : Slot → Slot) : (s.moveSlot (some b) f).EntriesCommit := h.of_exchange (by simp)
  cases r with
  | some r => exact hm _
  | none =>
    dsimp only
    split
    · exact h.setEntry ⟨fun _ => hl, fun _ _ => rfl⟩
    · exact hm _

theorem grant (h : s.EntriesCommit) (r : TagRequest) (i : EntryIndex) : (s.grant r i).EntriesCommit := by
  cases r with
  | lookup l q k o =>
    unfold Station.grant
    dsimp only
    split
    · exact h.setEntry (Entry.grantLookup_commitSound ..)
    · exact h.of_exchange (by simp)
  | hostRelease k l c o => exact h.setEntry (Entry.grantRelease_commitSound ..)

theorem deliverSelf (h : s.EntriesCommit) (i : EntryIndex) : (s.deliverSelf i).EntriesCommit := by
  unfold Station.deliverSelf
  split
  · rename_i hr
    exact (h.setEntry (t := s.workPush _) ((h i).handedOn hr .delivered)).of_entries rfl
  · exact h

theorem deliverBus (h : s.EntriesCommit) (i : EntryIndex) : (s.deliverBus i).EntriesCommit := by
  unfold Station.deliverBus
  split
  · rename_i hr
    exact (h.setEntry (t := s.txPush _ _) ((h i).handedOn hr .sent)).of_entries rfl
  · exact h

theorem recordOffer (h : s.EntriesCommit) (p : HandOnPath) (i : EntryIndex) : (s.recordOffer p i).EntriesCommit := by
  cases p <;> exact h.of_entries rfl

end Station.EntriesCommit

end Sys2Proof.Machine
end

section
namespace Sys2Proof.Machine

/-! ### No COMMIT under locator 0 joins the index work queue (R13, R137) -/

/-- A frame carries no COMMIT under locator 0. -/
def Frame.commitsNonzero (f : Frame) : Prop := ∀ k l, f.body = .commit k l → l ≠ 0

theorem cellLocator_ne_zero {body : List Bool} {n : Nat} {l : Locator} (h : cellLocator body n = some l) : l ≠ 0 := by
  unfold cellLocator at h
  dsimp only at h
  split at h <;> cases h
  assumption

/-- A COMMIT that a frame on the line decodes to is not under locator 0 (R137). -/
theorem decodeBody_commit_ne_zero {n : Nat} {body : List Bool} {k : Key} {l : Locator}
    (h : decodeBody n body = some (.commit k l)) : l ≠ 0 := by
  unfold decodeBody at h
  dsimp only at h
  split at h
  case h_5 =>
    obtain ⟨l', hl, e⟩ := Option.map_eq_some_iff.1 h
    cases e
    exact cellLocator_ne_zero hl
  all_goals (repeat' split at h) <;> simp at h

theorem parseFrame_commitsNonzero {cells : List Bool} {f : Frame} (h : parseFrame cells = some f) : f.commitsNonzero := by
  have hd : ∃ n body, decodeBody n body = some f.body := by
    unfold parseFrame at h
    dsimp only at h
    repeat' split at h
    all_goals cases h
    exact ⟨_, _, ‹_›⟩
  obtain ⟨n, body, hd⟩ := hd
  exact fun k l e => decodeBody_commit_ne_zero (e ▸ hd)

theorem Frame.commitsNonzero.workItem {f : Frame} (h : f.commitsNonzero) {item : WorkItem}
    (hi : f.workItem = some item) : item.commitsNonzero := by
  unfold Frame.workItem at hi
  dsimp only at hi
  split at hi <;> cases hi
  case h_2 hb => exact h _ _ hb
  all_goals trivial

theorem Station.EntriesCommit.requestItem {s : Station} (h : s.EntriesCommit) {i : EntryIndex} {k : RequestKind}
    {ph : Phase} (hr : (s.entry i).request = some (k, ph)) : (s.requestItem i k).commitsNonzero := by
  cases k with
  | commit => exact (h i).locator ((h i).request ph hr)
  | ask | drop | release => trivial

/-- No COMMIT under locator 0 stands in the index work queue or on its way there. -/
structure Station.CommitsSound (s : Station) : Prop where
  entries : s.EntriesCommit
  queued : ∀ item ∈ s.index.queue, item.commitsNonzero
  held : ∀ item, s.roster.held = some item → item.commitsNonzero
  inbound : ∀ f ∈ s.bus.inbound, f.commitsNonzero

namespace Station.CommitsSound
variable {s t : Station}

/-- Entries sound, and the three places of COMMITs outside them as they were. -/
theorem of_entries (h : s.CommitsSound) (he : t.EntriesCommit) (hq : t.index.queue = s.index.queue := by simp)
    (hh : t.roster.held = s.roster.held := by simp) (hi : t.bus.inbound = s.bus.inbound := by simp) :
    t.CommitsSound where
  entries := he
  queued := by rw [hq]; exact h.queued
  held := by rw [hh]; exact h.held
  inbound := by rw [hi]; exact h.inbound

/-- All of them as they were. -/
theorem of_same (h : s.CommitsSound) (he : t.exchange.entries = s.exchange.entries := by simp)
    (hq : t.index.queue = s.index.queue := by simp) (hh : t.roster.held = s.roster.held := by simp)
    (hi : t.bus.inbound = s.bus.inbound := by simp) : t.CommitsSound :=
  h.of_entries (h.entries.of_entries he) hq hh hi

/-- The inbound head taken. -/
theorem tail (h : s.CommitsSound) {f : Frame} {rest : List Frame} (hb : s.bus.inbound = f :: rest) :
    ({ s with bus.inbound := rest } : Station).CommitsSound :=
  { h with inbound := fun g hg => h.inbound g (hb ▸ List.mem_cons_of_mem f hg) }

theorem workPush (h : s.CommitsSound) {item : WorkItem} (hi : item.commitsNonzero) : (s.workPush item).CommitsSound :=
  { h with
    queued := fun x hx => by
      rcases List.mem_append.1 hx with hx | hx
      · exact h.queued x hx
      · rw [List.mem_singleton.1 hx]; exact hi }

theorem deliverInbound (h : s.CommitsSound) : s.deliverInbound.CommitsSound := by
  unfold Station.deliverInbound
  split
  · rename_i f rest hb
    split
    · have hu : ({ s with bus.inbound := rest, bus.inboundWaits := false } : Station).CommitsSound :=
        (h.tail hb).of_same rfl rfl rfl rfl
      exact hu.workPush ((h.inbound f (by simp [hb])).workItem ‹_›)
    · exact h
  · exact h

theorem deliverSelf (h : s.CommitsSound) (i : EntryIndex) : (s.deliverSelf i).CommitsSound := by
  refine { h with entries := h.entries.deliverSelf i, queued := ?_, held := by simpa using h.held,
                  inbound := by simpa using h.inbound }
  unfold Station.deliverSelf
  split
  · rename_i hr
    exact (h.workPush (h.entries.requestItem hr)).queued
  · exact h.queued

theorem deliverBus (h : s.CommitsSound) (i : EntryIndex) : (s.deliverBus i).CommitsSound := by
  refine h.of_entries (h.entries.deliverBus i) (by simp) (by simp) ?_
  unfold Station.deliverBus
  split <;> simp

theorem deliverHeld (h : s.CommitsSound) : s.deliverHeld.CommitsSound := by
  unfold Station.deliverHeld
  split
  · rename_i hh
    have hu : ({ s with roster.held := none } : Station).CommitsSound := { h with held := nofun }
    exact hu.workPush (h.held _ hh)
  · exact h

theorem offerPeerItem (h : s.CommitsSound) {item : WorkItem} (hi : item.commitsNonzero) :
    (s.offerPeerItem item).CommitsSound := by
  unfold Station.offerPeerItem
  split
  · exact h.workPush hi
  · exact { h with held := fun _ e => by cases e; exact hi }

theorem admitSource (h : s.CommitsSound) (x : Source) : (s.admitSource x).CommitsSound := by
  unfold Station.admitSource
  cases x with
  | bus => exact h.deliverInbound.of_same rfl rfl rfl rfl
  | roster => exact h.deliverHeld.of_same rfl rfl rfl rfl
  | exchange =>
    dsimp only
    split
    · exact (h.deliverSelf _).of_same rfl rfl rfl rfl
    · exact h.of_same rfl rfl rfl rfl

theorem dispatchRequest (h : s.CommitsSound) : s.dispatchRequest.CommitsSound := by
  unfold Station.dispatchRequest
  (repeat' split)
  · exact h.of_same rfl rfl rfl rfl
  · exact h
  · exact h.deliverInbound

theorem recordOffer (h : s.CommitsSound) (p : HandOnPath) (i : EntryIndex) : (s.recordOffer p i).CommitsSound :=
  h.of_entries (h.entries.recordOffer p i)

theorem handOnSelf (h : s.CommitsSound) (i : EntryIndex) : (s.handOnSelf i).CommitsSound := by
  unfold Station.handOnSelf
  (repeat' split)
  · exact h.recordOffer _ i
  · exact h
  · exact h.deliverSelf i

theorem handOnBus (h : s.CommitsSound) (i : EntryIndex) : (s.handOnBus i).CommitsSound := by
  unfold Station.handOnBus
  (repeat' split)
  · exact h.recordOffer _ i
  · exact h.deliverBus i
  · exact h

theorem takeAnswer (h : s.CommitsSound) (g : Tag) (a : AnswerBody) : (s.takeAnswer g a).CommitsSound :=
  h.of_entries (h.entries.takeAnswer g a)

theorem handOnAnswer (h : s.CommitsSound) (a : Answer) (rest : List Answer) : (s.handOnAnswer a rest).CommitsSound := by
  have hu : ({ s with index.answers := rest } : Station).CommitsSound := h.of_same rfl rfl rfl rfl
  unfold Station.handOnAnswer
  (repeat' split)
  · exact hu.takeAnswer _ _
  all_goals exact h.of_same rfl rfl rfl rfl

theorem tellOutcome (h : s.CommitsSound) (f : TxFrame) (a : Bool) : (s.tellOutcome f a).CommitsSound := by
  unfold Station.tellOutcome
  (repeat' split)
  · exact h
  · exact h.of_entries (h.entries.takeOutcome _ _ _)
  · exact h
  · exact h.of_same rfl rfl rfl rfl

theorem bump (h : s.CommitsSound) (c : Counter) : (s.bump c).CommitsSound := h.of_same rfl rfl rfl rfl

theorem endAttempt (h : s.CommitsSound) (f : TxFrame) (a : Bool) : (s.endAttempt f a).CommitsSound := by
  have hr : s.removeOnLine.CommitsSound := h.of_same rfl rfl rfl rfl
  unfold Station.endAttempt
  (repeat' split)
  · exact (hr.bump _).tellOutcome f true
  · exact hr
  · exact h.of_same rfl rfl rfl rfl
  · exact (hr.bump _).tellOutcome f false

theorem oweConflict (h : s.CommitsSound) (c : OwedConflict) :
    ({ s with roster := s.roster.oweConflict c } : Station).CommitsSound := by
  refine h.of_same rfl rfl ?_ rfl
  unfold Roster.oweConflict
  split <;> rfl

theorem placeFrame (h : s.CommitsSound) {f : Frame} (hf : f.commitsNonzero) (d : Bool) :
    (s.placeFrame f d).CommitsSound := by
  unfold Station.placeFrame
  split
  · have hu : ({ s with bus.inbound := s.bus.inbound ++ [f], bus.ackDriven := d } : Station).CommitsSound :=
      { h with
        inbound := fun g hg => by
          rcases List.mem_append.1 hg with hg | hg
          · exact h.inbound g hg
          · rw [List.mem_singleton.1 hg]; exact hf }
    exact hu.bump _
  · exact h.bump _

theorem checkFrame (h : s.CommitsSound) (cells : List Bool) : (s.checkFrame cells).CommitsSound := by
  unfold Station.checkFrame Station.goodFrame
  split
  · exact h.bump _
  · rename_i f hp
    have hf := parseFrame_commitsNonzero hp
    have hl : (s.signOfLife f.sender).CommitsSound := h.of_same (by simp) (by simp) rfl (by simp)
    dsimp only
    (repeat' split)
    · exact h.bump _
    · exact (h.bump _).oweConflict _
    · exact hl.placeFrame hf _
    · exact hl.placeFrame hf _
    · exact hl

theorem purge (h : s.CommitsSound) (p : StationNo) : (s.purge p).CommitsSound := h.of_same rfl rfl rfl rfl

theorem reportPeer (h : s.CommitsSound) (v : PeerEvent) (p : StationNo) : (s.reportPeer v p).CommitsSound :=
  h.of_same rfl rfl rfl rfl

theorem cleanupPeer (h : s.CommitsSound) (r : Bool) (p : StationNo) : (s.cleanupPeer r p).CommitsSound := by
  have hc : (s.cleanExchange r p).CommitsSound := h.of_entries (h.entries.cleanExchange r p)
  exact (hc.purge p).offerPeerItem (by cases r <;> trivial)

theorem silencePeer (h : s.CommitsSound) (p : StationNo) : (s.silencePeer p).CommitsSound := by
  have hu (x : Peer) : (s.setPeer p x).CommitsSound := h.of_same
  exact ((hu _).cleanupPeer false p).reportPeer _ p

theorem decideBeacon (h : s.CommitsSound) (p : StationNo) (f : Bool) (z : BitVec 4) :
    (s.decideBeacon p f z).CommitsSound := by
  unfold Station.decideBeacon
  dsimp only
  (repeat' split)
  · exact (h.bump _).oweConflict _
  · exact h
  · exact h.of_same
  · exact (h.cleanupPeer true p).reportPeer _ p
  · exact h

theorem takeBeacon (h : s.CommitsSound) : s.takeBeacon.CommitsSound := by
  unfold Station.takeBeacon
  (repeat' split)
  · exact (h.tail ‹_›).decideBeacon _ _ _
  all_goals exact h

theorem appendReport (h : s.CommitsSound) (p : Producer) (r : Report) : (s.appendReport p r).CommitsSound := by
  unfold Station.appendReport
  split
  · cases p with
    | lane =>
      cases r with
      | recipe l q =>
        unfold Station.tellProducer Station.recipeReported
        dsimp only
        split
        · exact h.of_entries (h.entries.setEntry (h.entries _).release rfl)
        · exact h.of_same rfl rfl rfl rfl
      | _ => exact h.of_same rfl rfl rfl rfl
    | _ => exact h.of_same rfl rfl rfl rfl
  · exact h.of_same rfl rfl rfl rfl

theorem completeBurst (h : s.CommitsSound) (b : Burst) (f : Fetch) : (s.completeBurst b f).CommitsSound := by
  have hu : ({ s with chunker.burst := none, fetch.burst := none } : Station).CommitsSound := h.of_same rfl rfl rfl rfl
  unfold Station.completeBurst
  dsimp only
  (repeat' split)
  · exact hu
  · exact h.of_same
  · exact hu.of_entries (hu.entries.abortLane _ _)

theorem actDeadline (h : s.CommitsSound) (d : Deadline) : (s.actDeadline d).CommitsSound := by
  cases d with
  | claim p =>
    obtain ⟨-, ⟨v, hv⟩, -⟩ := Station.actDeadline_parts (.claim p) s
    exact h.of_same (by simp [Station.actDeadline]) (by rw [hv]) (by simp [Station.actDeadline])
      (by simp [Station.actDeadline])
  | entry i => exact h.of_entries (t := s.entryExpired i) (h.entries.entryExpired i)
  | peer p =>
    change (s.markSilence p).CommitsSound
    unfold Station.markSilence
    split
    · exact h.of_same
    · exact h
  | beacon =>
    obtain ⟨-, -, ⟨v, hv⟩, -⟩ := Station.actDeadline_parts .beacon s
    refine h.of_same (by simp [Station.actDeadline]) (by simp [Station.actDeadline]) ?_ (by rw [hv])
    change s.beaconExpired.roster.held = _
    unfold Station.beaconExpired Station.beaconFallsDue
    (repeat' split) <;> rfl

end Station.CommitsSound

end Sys2Proof.Machine
end

section
namespace Sys2Proof.Machine

/-! ### Every command keeps COMMITs off locator 0 -/

@[simp] theorem Station.beaconFallsDue_held (s : Station) : s.beaconFallsDue.roster.held = s.roster.held := by
  unfold Station.beaconFallsDue
  split <;> rfl

@[simp] theorem Station.beaconFallsDue_inbound (s : Station) : s.beaconFallsDue.bus.inbound = s.bus.inbound := by
  unfold Station.beaconFallsDue
  split <;> simp

@[simp] theorem Station.enterRunning_held (b : Bool) (s : Station) : (s.enterRunning b).roster.held = s.roster.held := by
  simp [Station.enterRunning]

@[simp] theorem Station.enterRunning_inbound (b : Bool) (s : Station) :
    (s.enterRunning b).bus.inbound = s.bus.inbound := by
  simp [Station.enterRunning]

namespace Station.CommitsSound
variable {s t : Station}

theorem takeHead (h : s.CommitsSound) {n : Nat} {decide : CmdEntry → Station → Option Station}
    (hd : ∀ e x y, x.CommitsSound → decide e x = some y → y.CommitsSound) : (s.takeHead n decide).CommitsSound := by
  rcases s.takeHead_cases n decide with e | ⟨e, rest, -, -, -, hy⟩
  · rw [e]; exact h
  · exact hd e { s with port.fifo := rest } _ (h.of_same rfl rfl rfl rfl) hy

theorem takeLaneCommand (h : s.CommitsSound) {n : Nat} {decide : CmdEntry → Station → Except CmdErrorCode Station}
    (hd : ∀ e x y, x.CommitsSound → decide e x = .ok y → y.CommitsSound) : (s.takeLaneCommand n decide).CommitsSound := by
  rcases s.takeLaneCommand_cases n decide with e | ⟨e, rest, -, -, -, ⟨-, hy⟩ | ⟨-, x, -, hy⟩ | ⟨-, hy⟩⟩
  · rw [e]; exact h
  · rw [hy]; exact h.of_same rfl rfl rfl rfl
  · rw [hy]; exact h.of_same rfl rfl rfl rfl
  · exact hd e { s with port.fifo := rest } _ (h.of_same rfl rfl rfl rfl) hy

theorem takeItem (h : s.CommitsSound) {α : Type} {select : WorkItem → Option α} {act : α → Station → Station}
    (ha : ∀ x (u : Station), u.CommitsSound → (act x u).CommitsSound) : (s.takeItem select act).CommitsSound := by
  rcases s.takeItem_cases select act with e | ⟨item, rest, x, hq, -, -, e⟩ <;> rw [e]
  · exact h
  · exact ha x _ { h with queued := fun y hy => h.queued y (hq ▸ List.mem_cons_of_mem item hy) }

/-- A bucket operation whose decision touches claims, release records and counters only. -/
theorem bucketOperation (h : s.CommitsSound) (b : Nat) {decide : BucketRead → Decision}
    (hi : ∀ r : BucketRead, r.station.index.ClaimsOrRecords (decide r).station.index)
    (hx : ∀ r : BucketRead, (decide r).station.exchange = r.station.exchange ∧
      (decide r).station.bus = r.station.bus ∧ (decide r).station.roster = r.station.roster) :
    (s.bucketOperation b decide).CommitsSound := by
  have ho : (s.openBucket b).station.exchange = s.exchange ∧ (s.openBucket b).station.bus = s.bus ∧
      (s.openBucket b).station.roster = s.roster := by
    unfold Station.openBucket
    split <;> exact ⟨rfl, rfl, rfl⟩
  obtain ⟨x, hr⟩ := s.openBucket_index b
  obtain ⟨v, w, hd⟩ := hi (s.openBucket b)
  obtain ⟨he, hb, hro⟩ := hx (s.openBucket b)
  refine h.of_same ?_ ?_ ?_ ?_
  · change (decide (s.openBucket b)).station.exchange.entries = _; rw [he, ho.1]
  · change (decide (s.openBucket b)).station.index.queue = _; rw [hd, hr]
  · change (decide (s.openBucket b)).station.roster.held = _; rw [hro, ho.2.2]
  · change (decide (s.openBucket b)).station.bus.inbound = _; rw [hb, ho.2.1]

theorem clearPeer (h : s.CommitsSound) (p : StationNo) : (s.clearPeer p).CommitsSound := by
  obtain ⟨v, a, hv⟩ := s.clearPeer_index p
  exact h.of_same (by simp) (by rw [hv]) (by simp) (by simp)

theorem decideStored (h : s.CommitsSound) {e : CmdEntry} (ht : s.decideStored e = .ok t) : t.CommitsSound := by
  have hb := Station.decideStored_blocks ht
  refine h.of_entries ?_ (by simp [hb]) (by simp [hb]) (by simp [hb])
  unfold Station.decideStored at ht
  dsimp only at ht
  (repeat' split at ht) <;> cases ht
  exact h.entries.storedSlot _ _ ‹_›

theorem abortLane (h : s.CommitsSound) (l : LaneNo) (r : AbortReason) : (s.abortLane l r).CommitsSound :=
  h.of_entries (h.entries.abortLane l r)

theorem decideStoreFailed (h : s.CommitsSound) {e : CmdEntry} (ht : s.decideStoreFailed e = .ok t) : t.CommitsSound := by
  unfold Station.decideStoreFailed at ht
  dsimp only at ht
  (repeat' split at ht) <;> cases ht
  exact h.abortLane _ _

theorem decideAbort (h : s.CommitsSound) {e : CmdEntry} (ht : s.decideAbort e = .ok t) : t.CommitsSound := by
  unfold Station.decideAbort at ht
  split at ht <;> cases ht
  exact h.abortLane _ _

theorem decideRelease (h : s.CommitsSound) {e : CmdEntry} (ht : s.decideRelease e = some t) : t.CommitsSound := by
  have hb := Station.decideRelease_blocks ht
  refine h.of_same ?_ (by simp [hb]) (by simp [hb]) (by simp [hb])
  unfold Station.decideRelease at ht
  dsimp only at ht
  (repeat' split at ht) <;> cases ht <;> rfl

theorem decideStart (h : s.CommitsSound) {e : CmdEntry} (ht : s.decideStart e = some t) : t.CommitsSound := by
  obtain ⟨x, hx⟩ := Station.decideStart_index ht
  refine h.of_same (by simp [Station.decideStart_blocks ht]) (by rw [hx]) ?_ ?_ <;>
  · unfold Station.decideStart Station.startTaken at ht
    dsimp only at ht
    (repeat' split at ht) <;> cases ht <;> simp

theorem scrubDone (h : s.CommitsSound) (b : Nat) : (s.scrubDone b).CommitsSound := by
  obtain ⟨x, hx⟩ := s.scrubDone_index b
  refine h.of_same (by simp) (by rw [hx]) ?_ ?_ <;>
  · unfold Station.scrubDone
    dsimp only
    split <;> simp

theorem grant (h : s.CommitsSound) (r : TagRequest) (i : EntryIndex) : (s.grant r i).CommitsSound :=
  h.of_entries (h.entries.grant r i)

theorem digestDone (h : s.CommitsSound) (d : DigestEntry) : (s.digestDone d).CommitsSound := by
  refine h.of_same ?_
  unfold Station.digestDone Station.lookupCheck
  dsimp only
  (repeat' split) <;> simp

theorem reportReady (h : s.CommitsSound) (i : EntryIndex) : (s.setEntry i (s.entry i).reportMade).CommitsSound :=
  h.of_entries (h.entries.setEntry (h.entries i).reportMade)

/-- The four blocks that hold COMMITs as they were. -/
theorem of_blocks (h : s.CommitsSound)
    (e : t.exchange = s.exchange ∧ t.index = s.index ∧ t.roster = s.roster ∧ t.bus = s.bus) : t.CommitsSound := by
  obtain ⟨he, hi, hr, hb⟩ := e
  exact h.of_same (by rw [he]) (by rw [hi]) (by rw [hr]) (by rw [hb])

theorem of_reset (he : t.exchange = Exchange.reset) (hq : t.index.queue = []) (hh : t.roster.held = none)
    (hi : t.bus.inbound = []) : t.CommitsSound where
  entries := Station.entriesCommit_reset he
  queued := by simp [hq]
  held := by simp [hh]
  inbound := by simp [hi]

end Station.CommitsSound

theorem exec_keeps_commitsSound {c : Instr} {s t : State} (hd : Instr.isDeadlineRow c = false)
    (ha : s.station.DeadlinesActed) (hs : s.station.CommitsSound) (h : exec c s = .next t) : t.station.CommitsSound := by
  rw [← Station.settled_of_acted ha] at hs
  cases c with
  | coldReset => cases h; exact .of_reset rfl rfl rfl rfl
  | warmReset =>
    cases h
    dsimp only
    split
    · exact hs.of_same rfl rfl rfl rfl
    · exact .of_reset rfl rfl rfl rfl
  | coldRelease => exact hs.of_blocks (by simp [execColdRelease_frame h])
  | stagingWrite => exact hs.of_blocks (by simp [execStagingWrite_frame h])
  | reportWordRead => exact hs.of_blocks (by simp [execReportWordRead_frame h])
  | statusWordRead => exact hs.of_blocks (by simp [execStatusWordRead_frame h])
  | poolSet => exact hs.of_blocks (by simp [execPoolSet_frame h])
  | configure => exact hs.of_blocks (by simp [execConfigure_frame h])
  | stats => exact hs.of_blocks (by simp [execStats_frame h])
  | unknownCommand => exact hs.of_blocks (by simp [execUnknownCommand_frame h])
  | openLane => exact hs.of_blocks (by simp [execOpenLane_frame h])
  | segment => exact hs.of_blocks (by simp [execSegment_frame h])
  | close => exact hs.of_blocks (by simp [execClose_frame h])
  | suspend => exact hs.of_blocks (by simp [execSuspend_frame h])
  | resume => exact hs.of_blocks (by simp [execResume_frame h])
  | leaseTick => exact hs.of_blocks (by simp [execLeaseTick_frame h])
  | burstIssue => exact hs.of_blocks (by simp [execBurstIssue_frame h])
  | fetchReadCompletion => exact hs.of_blocks (by simp [execFetchReadCompletion_frame h])
  | fetchTimeout => exact hs.of_blocks (by simp [execFetchTimeout_frame h])
  | digestStart => exact hs.of_blocks (by simp [execDigestStart_frame h])
  | laneReportReady => exact hs.of_blocks (by simp [execLaneReportReady_frame h])
  | commandWordWrite => exact hs.of_blocks (by simp [execCommandWordWrite_frame h])
  | warmRelease => exact hs.of_blocks (by simp [execWarmRelease_frame h])
  | start => cases h; exact hs.takeHead fun _ _ _ hx hy => hx.decideStart hy
  | stored => cases h; exact hs.takeLaneCommand fun _ _ _ hx hy => hx.decideStored hy
  | storeFailed => cases h; exact hs.takeLaneCommand fun _ _ _ hx hy => hx.decideStoreFailed hy
  | abort => cases h; exact hs.takeLaneCommand fun _ _ _ hx hy => hx.decideAbort hy
  | release => cases h; exact hs.takeHead fun _ _ _ hx hy => hx.decideRelease hy
  | leaseExpiry =>
    cases h
    dsimp only
    (repeat' split)
    · exact hs.bucketOperation _ (decideExpiry_index _ _) fun r => by simp [decideExpiry_blocks]
    all_goals exact hs
  | ask =>
    cases h
    exact hs.takeItem fun _ u hu => hu.bucketOperation _ (decideAsk_index _ _) fun r => by simp [decideAsk_blocks]
  | commit =>
    cases h
    exact hs.takeItem fun _ u hu => hu.bucketOperation _ (decideCommit_index _ _ _) fun r => by simp [decideCommit_blocks]
  | drop =>
    cases h
    exact hs.takeItem fun _ u hu => hu.bucketOperation _ (decideDrop_index _ _) fun r => by simp [decideDrop_blocks]
  | releaseItem =>
    cases h
    exact hs.takeItem fun _ u hu => hu.bucketOperation _ (decideRelease_index _ _ _) fun r => by
      simp [decideRelease_blocks]
  | peerLost | peerRestarted => cases h; exact hs.takeItem fun x u hu => hu.clearPeer x
  | bucketWriteDone =>
    cases h
    dsimp only
    split
    · exact hs.of_same rfl rfl rfl rfl
    · exact hs
  | answerHandOn =>
    cases h
    dsimp only
    (repeat' split)
    · exact hs.handOnAnswer _ _
    all_goals exact hs
  | workQueueAdmit =>
    cases h
    dsimp only
    (repeat' split)
    · exact hs.admitSource _
    all_goals exact hs
  | scrubWriteDone =>
    cases h
    dsimp only
    (repeat' split)
    · exact hs.scrubDone _
    all_goals exact hs
  | burstCompletion =>
    cases h
    dsimp only
    (repeat' split)
    · exact hs.completeBurst _ _
    all_goals exact hs
  | digestCompletion =>
    cases h
    dsimp only
    (repeat' split)
    · exact hs.of_same rfl rfl rfl rfl
    · refine Station.CommitsSound.digestDone ?_ _
      exact hs.of_same rfl rfl rfl rfl
    · exact hs
  | tagGrant =>
    cases h
    dsimp only
    split
    · refine Station.CommitsSound.grant ?_ _ _
      exact hs.of_same rfl rfl rfl rfl
    · exact hs
  | requestHandOn path =>
    cases h
    dsimp only
    split
    · cases path with
      | self => exact hs.handOnSelf _
      | bus => exact hs.handOnBus _
    · exact hs
  | exchangeReportReady =>
    cases h
    dsimp only
    (repeat' split)
    · exact hs
    · exact (hs.reportReady _).of_same rfl rfl rfl rfl
    · exact hs
  | reportAppend =>
    cases h
    dsimp only
    (repeat' split)
    · exact hs.appendReport _ _
    all_goals exact hs
  | contention =>
    cases h
    dsimp only
    (repeat' split) <;> exact hs.of_same rfl rfl rfl rfl
  | attemptEnd =>
    cases h
    dsimp only
    (repeat' split)
    · refine Station.CommitsSound.endAttempt ?_ _ _
      exact hs.of_same rfl rfl rfl rfl
    · refine Station.CommitsSound.endAttempt ?_ _ _
      exact hs.of_same rfl rfl rfl rfl
    · exact hs
  | yieldClear => cases h; dsimp only; split <;> exact hs.of_same rfl rfl rfl rfl
  | frameReceived =>
    cases h
    dsimp only
    split
    · refine Station.CommitsSound.checkFrame ?_ _
      exact hs.of_same rfl rfl rfl rfl
    · exact hs
  | frameAbandoned => cases h; dsimp only; split <;> exact hs.of_same rfl rfl rfl rfl
  | inboundDispatch =>
    cases h
    dsimp only
    (repeat' split)
    · exact (hs.tail ‹_›).takeAnswer _ _
    · exact hs.takeBeacon
    iterate 4 exact hs.dispatchRequest
    exact hs
  | peerSilent =>
    cases h
    dsimp only
    (repeat' split)
    · exact hs
    · refine Station.CommitsSound.silencePeer ?_ _
      exact hs.of_same rfl rfl rfl rfl
    · exact hs
  | peerJoin =>
    cases h
    dsimp only
    (repeat' split) <;> exact hs.of_same rfl rfl rfl rfl
  | beaconTaken => cases h; exact hs.takeBeacon
  | conflictReport =>
    cases h
    dsimp only
    (repeat' split) <;> exact hs.of_same rfl rfl rfl rfl
  | leaseDeadline | answerDeadline | holdDeadline | orphanHoldDeadline | silenceDeadline | beaconDue => cases hd

end Sys2Proof.Machine
end

section
namespace Sys2Proof.Machine

/-! ### The places an operation leaves meet R16 -/

section Places
variable {b : Nat} {ps : Vector Place 8}

/-- A place set to an entry of this bucket whose key no other place holds. -/
theorem PlacesSound.set (h : PlacesSound b ps) {i : Fin 8} {x : Place} (hu : x.used = true)
    (hx : x.pool ≠ 15 ∧ x.locator ≠ 0 ∧ x.count ≠ 0 ∧ bucketIndex x.key = b)
    (hn : ∀ j : Fin 8, i ≠ j → ps[j].used = true → ps[j].key ≠ x.key) : PlacesSound b (ps.set i x) where
  empty j hj := by
    rw [Vector.get_set_fin] at hj ⊢
    split at hj
    · rw [hu] at hj; cases hj
    · rw [if_neg ‹_›]; exact h.empty j hj
  entry j hj := by
    rw [Vector.get_set_fin] at hj ⊢
    split at hj
    · rw [if_pos ‹_›]; exact hx
    · rw [if_neg ‹_›]; exact h.entry j hj
  distinct j k := by
    rw [Vector.get_set_fin, Vector.get_set_fin]
    split <;> split
    · rintro - - -; exact Eq.trans (Eq.symm ‹i = j›) ‹i = k›
    · exact fun _ hk e => absurd e.symm (hn k ‹_› hk)
    · exact fun hj _ e => absurd e (hn j ‹_› hj)
    · exact h.distinct j k

theorem PlacesSound.clearPlace (h : PlacesSound b ps) (i : Fin 8) : PlacesSound b (clearPlace i ps) where
  empty j := by
    rw [Machine.clearPlace, Vector.get_set_fin]
    split
    · exact fun _ => rfl
    · exact h.empty j
  entry j := by
    rw [Machine.clearPlace, Vector.get_set_fin]
    split
    · exact nofun
    · exact h.entry j
  distinct j k := by
    rw [Machine.clearPlace, Vector.get_set_fin, Vector.get_set_fin]
    split <;> split
    · exact nofun
    · exact nofun
    · exact nofun
    · exact h.distinct j k

/-- An entry's count replaced by another one than 0. -/
theorem PlacesSound.setCount (h : PlacesSound b ps) {i : Fin 8} (hu : ps[i].used = true) {n : BitVec 16} (hn : n ≠ 0) :
    PlacesSound b (setCount i n ps) := by
  obtain ⟨hpool, hloc, -, hb⟩ := h.entry i hu
  exact h.set hu ⟨hpool, hloc, hn, hb⟩ fun j hij hj hk => hij (h.distinct i j hu hj hk.symm)

/-- A pinned count is not raised, and no other one wraps (R18, R20). -/
theorem PlacesSound.raiseCount (h : PlacesSound b ps) {i : Fin 8} (hu : ps[i].used = true) :
    PlacesSound b (raiseCount i ps).2 := by
  unfold Machine.raiseCount
  split
  · exact h
  · rename_i hp
    refine h.setCount hu fun h0 => hp ?_
    rw [Config.pinnedCount]
    bv_omega

/-- Only a count of 1 is taken down to 0, and its entry leaves (R19). -/
theorem PlacesSound.releaseEntry (h : PlacesSound b ps) (key : Key) (locator : Locator) :
    PlacesSound b (releaseEntry key locator ps).1 := by
  unfold Machine.releaseEntry
  split
  · rename_i i hf
    (repeat' split)
    · exact h
    · exact h
    · exact h.clearPlace i
    · rename_i h1
      refine h.setCount (findPlace_has hf).1 fun h0 => h1 ?_
      bv_omega
  · exact h

theorem PlacesSound.installPlace {key : Key} {locator : Locator} {count : BitVec 16}
    (h : PlacesSound (bucketIndex key) ps) (hp : key.pool ≠ 15) (hl : locator ≠ 0) (hc : count ≠ 0)
    (hn : findPlace key ps = none) : PlacesSound (bucketIndex key) (installPlace key locator count ps) := by
  rcases installPlace_cases key locator count ps with e | ⟨i, -, e⟩ <;> rw [e]
  · exact h
  · exact h.set rfl ⟨hp, hl, hc, rfl⟩ fun j _ hj => findPlace_eq_none.1 hn j hj

theorem placesSound_empty (b : Nat) : PlacesSound b emptyPlaces :=
  ((Bucket.wellFormed_iff b emptyBucket).1 (emptyBucket_wellFormed b)).2

/-- What the read of a bucket gives an operation meets R16, after the damage check (R22). -/
theorem ShardTable.checked_sound (t : ShardTable) (b : Nat) : PlacesSound b (t.checked b) := by
  unfold ShardTable.checked
  split
  · exact ((Bucket.wellFormed_iff b _).1 ‹_›).2
  · exact placesSound_empty b

theorem sealPlaces_wellFormed (h : PlacesSound b ps) : (sealPlaces ps).wellFormed b = true :=
  (Bucket.wellFormed_iff b _).2 ⟨rfl, h⟩

end Places

/-! ### Each decision keeps them so -/

theorem decideAsk_placesSound {sender : Pair} {key : Key} {r : BucketRead} {b : Nat} (h : PlacesSound b r.places) :
    PlacesSound b (decideAsk sender key r).places := by
  unfold decideAsk
  dsimp only
  split
  · exact h
  split
  · exact h.raiseCount (findPlace_has ‹_›).1
  · exact h

/-- The first count of a claimed key: its writer's reference and one for each waiter (R49), of which there are few. -/
theorem installedCount_ne_zero {n : Nat} (h : n ≤ 6) : BitVec.ofNat 16 (1 + n) ≠ 0 := fun e => by
  have h0 : (1 + n) % 2 ^ 16 = 0 := congrArg BitVec.toNat e
  omega

theorem decideCommit_placesSound {sender : Pair} {key : Key} {locator : Locator} {r : BucketRead} (hl : locator ≠ 0)
    (hw : ∀ (p : ClaimPos) (c : Claim), r.station.index.claims[p] = some c → c.waiters.length ≤ 6)
    (h : PlacesSound (bucketIndex key) r.places) :
    PlacesSound (bucketIndex key) (decideCommit sender key locator r).places := by
  unfold decideCommit
  split
  · exact h
  rename_i hp
  split
  · unfold commitCommitted
    split
    · exact h
    · exact h.raiseCount (findPlace_has ‹_›).1
  rename_i hn
  have absent : PlacesSound (bucketIndex key) (commitAbsent sender key locator r).places := by
    unfold commitAbsent
    split
    · exact h.installPlace hp hl (by decide) hn
    · exact h
  (repeat' split)
  · rename_i c hc
    exact h.installPlace hp hl (installedCount_ne_zero (List.length_erase_le.trans (hw _ c hc))) hn
  · exact absent
  · exact absent

theorem decideDrop_placesSound {sender : Pair} {key : Key} {r : BucketRead} {b : Nat} (h : PlacesSound b r.places) :
    PlacesSound b (decideDrop sender key r).places := by
  unfold decideDrop
  dsimp only
  (repeat' split) <;> exact h

theorem decideRelease_placesSound {sender : Pair} {key : Key} {locator : Locator} {r : BucketRead} {b : Nat}
    (h : PlacesSound b r.places) : PlacesSound b (decideRelease sender key locator r).places := by
  unfold decideRelease
  dsimp only
  (repeat' split)
  · exact h
  · exact h.releaseEntry key locator
  · exact h.releaseEntry key locator

/-! ### Every bucket written back is well formed (R16, R20, R23) -/

/-- The write-back in flight is well formed for its bucket. -/
def IndexUnit.WriteSound (x : IndexUnit) : Prop := ∀ b k, x.write = some (b, k) → k.wellFormed b = true

theorem IndexUnit.WriteSound.of_write {x y : IndexUnit} (h : x.WriteSound) (e : y.write = x.write) : y.WriteSound := by
  unfold IndexUnit.WriteSound
  rw [e]
  exact h

theorem IndexUnit.writeSound_of_none {x : IndexUnit} (h : x.write = none) : x.WriteSound := fun b k e => by
  rw [h] at e
  cases e

theorem Station.bucketOperation_writeSound {s : Station} {b : Nat} {decide : BucketRead → Decision}
    (hd : ∀ r : BucketRead, r.station.index.claims = s.index.claims → PlacesSound b r.places →
      PlacesSound b (decide r).places) : (s.bucketOperation b decide).index.WriteSound := by
  obtain ⟨x, hx⟩ := s.openBucket_index b
  have hp := hd (s.openBucket b) (by rw [hx])
    (by rw [Station.openBucket_places]; exact s.index.table.checked_sound b)
  intro a k e
  change (if _ then some (b, sealPlaces (decide (s.openBucket b)).places) else none) = some (a, k) at e
  split at e <;> cases e
  exact sealPlaces_wellFormed hp

theorem Station.takeItem_writeSound {s : Station} (h : s.index.WriteSound) {α : Type} {select : WorkItem → Option α}
    {act : α → Station → Station}
    (ha : ∀ x item rest, s.index.queue = item :: rest → select item = some x →
      (act x { s with index.queue := rest }).index.WriteSound) : (s.takeItem select act).index.WriteSound := by
  rcases s.takeItem_cases select act with e | ⟨item, rest, x, hq, hx, -, e⟩ <;> rw [e]
  · exact h
  · exact ha x item rest hq hx

theorem exec_keeps_writeSound {c : Instr} {s t : State} (hd : Instr.isDeadlineRow c = false)
    (ha : s.station.DeadlinesActed) (hc : s.station.ClaimsSound) (hs : s.station.CommitsSound)
    (hw : s.station.index.WriteSound) (h : exec c s = .next t) : t.station.index.WriteSound := by
  have peer : ∀ p (u : Station), u.index.WriteSound → (u.clearPeer p).index.WriteSound := fun p u hu => by
    obtain ⟨v, a, hv⟩ := u.clearPeer_index p
    exact hu.of_write (by rw [hv])
  cases hm : Instr.touchesMemory c with
  | false => exact hw.of_write (congrArg (·.2.1) (exec_memory hd hm ha h))
  | true =>
    rw [← Station.settled_of_acted ha] at hw hs hc
    cases c with
    | coldReset => cases h; exact IndexUnit.writeSound_of_none rfl
    | warmReset =>
      cases h
      dsimp only
      split
      · exact hw
      · exact IndexUnit.writeSound_of_none rfl
    | start =>
      cases h
      refine hw.of_write (Station.takeHead_keeps (fun x => x.index.write) (fun _ _ => rfl) fun e x y hy => ?_)
      obtain ⟨z, hz⟩ := Station.decideStart_index hy
      rw [hz]
    | ask =>
      cases h
      exact Station.takeItem_writeSound hw fun _ _ _ _ _ =>
        Station.bucketOperation_writeSound fun _ _ hp => decideAsk_placesSound hp
    | commit =>
      cases h
      refine Station.takeItem_writeSound hw fun x item rest hq hx =>
        Station.bucketOperation_writeSound fun r hr hp => decideCommit_placesSound ?_ (fun p c e => ?_) hp
      · have hi := hs.queued item (by simp [hq])
        cases item <;> cases hx
        exact hi
      · rw [hr] at e
        exact (hc.waiters p c e).1
    | drop =>
      cases h
      exact Station.takeItem_writeSound hw fun _ _ _ _ _ =>
        Station.bucketOperation_writeSound fun _ _ hp => decideDrop_placesSound hp
    | releaseItem =>
      cases h
      exact Station.takeItem_writeSound hw fun _ _ _ _ _ =>
        Station.bucketOperation_writeSound fun _ _ hp => decideRelease_placesSound hp
    | leaseExpiry =>
      cases h
      dsimp only
      (repeat' split)
      · exact Station.bucketOperation_writeSound fun _ _ hp => hp
      all_goals exact hw
    | peerLost | peerRestarted => cases h; exact Station.takeItem_writeSound hw fun x _ _ _ _ => peer x _ hw
    | bucketWriteDone =>
      cases h
      dsimp only
      split
      · exact IndexUnit.writeSound_of_none rfl
      · exact hw
    | scrubWriteDone =>
      cases h
      dsimp only
      (repeat' split)
      · rename_i b _ _
        obtain ⟨x, hx⟩ := Station.scrubDone_index b s.station.settled
        exact hw.of_write (by rw [hx])
      all_goals exact hw
    | _ => cases hm

/-- What a step needs to keep its bucket writes sound: besides these a sound claim table, which bounds the first count of
a claimed key, and entries that send COMMIT only while COMMITTING. -/
structure Station.WritesReady (s : Station) : Prop where
  claims : s.ClaimsSound
  commits : s.CommitsSound
  write : s.index.WriteSound

theorem Station.WritesReady.writesSound {s : Station} (h : s.WritesReady) : s.WritesSound where
  write := h.write
  queued := h.commits.queued
  held := h.commits.held
  inbound := h.commits.inbound
  committing i := (h.commits.entries i).locator

theorem Station.WritesSound.ready {s : Station} (h : s.WritesSound) (hc : s.ClaimsSound) (he : s.EntriesSound) :
    s.WritesReady where
  claims := hc
  commits := ⟨fun i => (he i).commitSound (h.committing i), h.queued, h.held, h.inbound⟩
  write := h.write

theorem writesReady_keptByDeadlines : KeptByDeadlines Station.WritesReady := fun s d ds _ h => by
  obtain ⟨-, ⟨v, hv⟩, -⟩ := Station.actDeadline_parts d { s with clock.reached := ds }
  have hu : ({ s with clock.reached := ds } : Station).CommitsSound := h.commits.of_same rfl rfl rfl rfl
  exact {
    claims := h.claims.actDeadline d ds
    commits := hu.actDeadline d
    write := h.write.of_write (by rw [hv]) }

/-- Settles O12. -/
theorem writeBacksStayWellFormed : Obligations.WriteBacksStayWellFormed := by
  refine ⟨fun s t hc he hw h => ?_, fun s b k hw e => ?_⟩
  · exact (step_keeps (P := Station.WritesReady) (Q := Station.WritesReady) (fun _ h => h) writesReady_keptByDeadlines
      (fun s _ h => ⟨h.claims.of_index (by simp), h.commits.of_same, h.write.of_write (by simp)⟩)
      (fun c s t hd ha hs h => ⟨exec_keeps_claimsSound hd ha hs.claims h, exec_keeps_commitsSound hd ha hs.commits h,
        exec_keeps_writeSound hd ha hs.claims hs.commits hs.write h⟩)
      (hw.ready hc he) h).writesSound
  · have hk := hw.write b k e
    exact ⟨hk, fun i hi => count_pos_iff.2 (((Bucket.wellFormed_iff b k).1 hk).2.entry i hi).2.2.1⟩

end Sys2Proof.Machine
end

section
namespace Sys2Proof.Machine

/-! ### What no command but the resets, START and the scrub's end can change (R183) -/

/-- A step leaves settings and index unit as they were but for due markers, or runs a command on the station whose
deadlines are acted on. -/
theorem step_quiet_or_command {s t : State} (h : step s = .next t) :
    (t.station.control.settings = s.station.control.settings ∧
      ∃ v, t.station.index = { s.station.index with claims := v }) ∨
    ∃ c rest, s.front = some c ∧ Instr.isDeadlineRow c = false ∧ exec c ⟨s.station.settled, rest⟩ = .next t := by
  obtain ⟨x, pending⟩ := s
  cases pending with
  | nil =>
    cases h
    obtain ⟨-, ⟨v, hv⟩, -⟩ := x.settled_parts
    exact .inl ⟨(congrArg Control.settings x.settled.refclkPeriod_blocks.1).trans x.settled_settings, v, by simp [hv]⟩
  | cons c rest =>
    cases hd : Instr.isDeadlineRow c with
    | false => exact .inr ⟨c, rest, rfl, hd, (exec_settled hd ⟨x, rest⟩).symm.trans h⟩
    | true =>
      left
      rcases exec_deadlineRow hd h with e | ⟨d, -, ds, e⟩ <;> rw [e]
      · exact ⟨rfl, _, rfl⟩
      · obtain ⟨-, ⟨v, hv⟩, -⟩ := Station.actDeadline_parts d { x with clock.reached := ds }
        exact ⟨Station.actDeadline_settings d _, v, hv⟩

/-- The commands that may change the station state. -/
def Instr.touchesState : Instr → Bool
  | .coldReset | .warmReset | .start | .scrubWriteDone => true
  | _ => false

/-- Every other command leaves it as it is. -/
theorem exec_state {c : Instr} (hd : Instr.isDeadlineRow c = false) (hc : Instr.touchesState c = false) {s t : State}
    (ha : s.station.DeadlinesActed) (h : exec c s = .next t) : t.station.control.state = s.station.control.state := by
  cases hs : Instr.touchesStartup c with
  | false => exact (Control.settings_eq (congrArg Prod.fst (exec_startup hd hs ha h))).2.2.2.1
  | true =>
    rw [← Station.settled_of_acted ha]
    cases c with
    | coldRelease | leaseTick => cases h; dsimp only; split <;> rfl
    | warmRelease => cases h; rfl
    | poolSet =>
      cases h
      refine Station.takeHead_keeps (fun x => x.control.state) (fun _ _ => rfl) fun e x y hy => ?_
      cases hy
      unfold Station.decidePoolSet
      (repeat' split) <;> rfl
    | coldReset | warmReset | start | scrubWriteDone => cases hc
    | _ => cases hs

/-- A START decided leaves the station state, or finds valid straps in CONFIG and takes the station to SCRUB where a scrub
is owed and to RUNNING where none is (R185). -/
theorem Station.decideStart_state {e : CmdEntry} {s t : Station} (h : s.decideStart e = some t) :
    t.control.state = s.control.state ∨ (s.control.state = .config ∧ s.control.straps.valid = true ∧
      t.control.state = if s.control.scrubOwed then .scrub else .running) := by
  unfold Station.decideStart at h
  split at h
  · cases h; exact .inl rfl
  · rename_i hst
    split at h
    · cases h
    split at h
    · cases h
      exact .inr ⟨by simpa using hst, ‹_›, (congrArg Control.state s.startTaken_settings :)⟩
    · cases h; exact .inl rfl

theorem Straps.valid_iff {x : Straps} : x.valid = true ↔ x.clusterSize ≠ 0 ∧ x.number < x.clusterSize := by
  simp [Straps.valid]

/-- A scrub write completes before the last bucket: the next one begins (R28). -/
theorem Station.scrubDone_next {b : Nat} (h : b + 1 < 524288) (s : Station) : s.scrubDone b =
    { s with index.table := s.index.table.scrubWrite b, index.scrub := some (b + 1) } := if_pos h

/-- After the last bucket the scrub ends and the station enters RUNNING (R28). -/
theorem Station.scrubDone_last {b : Nat} (h : 524288 ≤ b + 1) (s : Station) : s.scrubDone b =
    ({ s with index.table := s.index.table.scrubWrite b, index.scrub := none } : Station).enterRunning true :=
  if_neg (Nat.not_lt.2 h)

theorem Station.enterRunning_state (f : Bool) (s : Station) : (s.enterRunning f).control.state = .running :=
  (congrArg Control.state (s.enterRunning_settings f) :)

/-! ### The resets, START and the ends of bucket writes: what each does once the deadlines are acted on -/

section Ends
variable {s t : State} (ha : s.station.DeadlinesActed)
include ha

theorem exec_coldReset_eq (h : exec .coldReset s = .next t) :
    t.station = { s.station.resetBlocks with control := s.station.control.assertCold } := by
  cases h
  simp [Station.settled_of_acted ha]

theorem exec_warmReset_cases (h : exec .warmReset s = .next t) :
    (s.station.control.coldPin = true ∧ t.station = { s.station with control.warmPin := true }) ∨
    (s.station.control.coldPin = false ∧
      t.station = { s.station.resetBlocks with control := s.station.control.assertWarm }) := by
  cases h
  dsimp only
  rw [Station.settled_of_acted ha]
  split
  · exact .inl ⟨‹_›, rfl⟩
  · exact .inr ⟨Bool.eq_false_iff.2 ‹_›, by simp⟩

theorem exec_start_cases (h : exec .start s = .next t) :
    t.station = s.station ∨ ∃ e rest, Station.decideStart e { s.station with port.fifo := rest } = some t.station := by
  cases h
  dsimp only
  rw [Station.settled_of_acted ha]
  exact (s.station.takeHead_cases 3 Station.decideStart).imp_right fun ⟨e, rest, _, _, _, h⟩ => ⟨e, rest, h⟩

theorem exec_bucketWriteDone_cases (h : exec .bucketWriteDone s = .next t) :
    t.station = s.station ∨ ∃ b k, s.station.index.write = some (b, k) ∧
      t.station = { s.station with index.table := s.station.index.table.write b k, index.write := none } := by
  cases h
  dsimp only
  rw [Station.settled_of_acted ha]
  split
  · exact .inr ⟨_, _, ‹_›, rfl⟩
  · exact .inl rfl

theorem exec_scrubWriteDone_cases (h : exec .scrubWriteDone s = .next t) :
    t.station = s.station ∨ ∃ b, s.station.index.scrub = some b ∧ s.station.control.state = .scrub ∧
      t.station = s.station.scrubDone b := by
  cases h
  dsimp only
  rw [Station.settled_of_acted ha]
  split
  · split
    · exact .inr ⟨_, ‹_›, ‹_›, rfl⟩
    · exact .inl rfl
  · exact .inl rfl

end Ends

/-! ### The station state changes by Table 11.2 (R183) -/

/-- Table 11.2 for a command that takes `s` to `t`. -/
def Station.StateByTable (front : Option Instr) (s t : Station) : Prop :=
  (front = some .coldReset ∧ t.control.state = .config) ∨
  (front = some .warmReset ∧ s.control.coldPin = false ∧ t.control.state = .config) ∨
  (front = some .start ∧ s.control.state = .config ∧ s.control.straps.clusterSize ≠ 0 ∧
    s.control.straps.number < s.control.straps.clusterSize ∧
    t.control.state = if s.control.scrubOwed then .scrub else .running) ∨
  (front = some .scrubWriteDone ∧ s.control.state = .scrub ∧ t.control.state = .running ∧
    ∃ b, s.index.scrub = some b ∧ 524287 ≤ b)

/-- The table reads settings and scrub only. -/
theorem Station.StateByTable.congr {front : Option Instr} {s u t : Station} (h : u.StateByTable front t)
    (hc : u.control.settings = s.control.settings) (hs : u.index.scrub = s.index.scrub) : s.StateByTable front t := by
  obtain ⟨hcold, -, hstraps, hstate, -, -, howed⟩ := Control.settings_eq hc
  unfold Station.StateByTable at h ⊢
  rwa [← hcold, ← hstraps, ← hstate, ← howed, ← hs]

theorem exec_stateByTable {c : Instr} (hd : Instr.isDeadlineRow c = false) {s t : State} (ha : s.station.DeadlinesActed)
    (h : exec c s = .next t) (hne : t.station.control.state ≠ s.station.control.state) :
    s.station.StateByTable (some c) t.station := by
  cases hc : Instr.touchesState c with
  | false => exact absurd (exec_state hd hc ha h) hne
  | true =>
    cases c with
    | coldReset => exact .inl ⟨rfl, by rw [exec_coldReset_eq ha h]; rfl⟩
    | warmReset =>
      rcases exec_warmReset_cases ha h with ⟨-, e⟩ | ⟨hp, e⟩
      · exact absurd (by rw [e]) hne
      · exact .inr (.inl ⟨rfl, hp, by rw [e]; rfl⟩)
    | start =>
      rcases exec_start_cases ha h with e | ⟨e, rest, he⟩
      · exact absurd (by rw [e]) hne
      · rcases Station.decideStart_state he with e | ⟨hst, hv, e⟩
        · exact absurd e hne
        · obtain ⟨hz, hn⟩ := Straps.valid_iff.1 hv
          exact .inr (.inr (.inl ⟨rfl, hst, hz, hn, e⟩))
    | scrubWriteDone =>
      rcases exec_scrubWriteDone_cases ha h with e | ⟨b, hb, hst, e⟩
      · exact absurd (by rw [e]) hne
      · by_cases hlast : b + 1 < 524288
        · exact absurd (by rw [e, Station.scrubDone_next hlast]) hne
        · refine .inr (.inr (.inr ⟨rfl, hst, ?_, b, hb, by omega⟩))
          rw [e, Station.scrubDone_last (Nat.not_lt.1 hlast), Station.enterRunning_state]
    | _ => cases hc

/-- Settles O16. -/
theorem stationStateChangesByTable : Obligations.StationStateChangesByTable := by
  intro s t h hne
  rcases step_quiet_or_command h with ⟨hset, -⟩ | ⟨c, rest, hf, hd, hx⟩
  · exact absurd (Control.settings_eq hset).2.2.2.1 hne
  · have hset := s.station.settled_settings
    obtain ⟨-, ⟨v, hv⟩, -⟩ := s.station.settled_parts
    rw [← (Control.settings_eq hset).2.2.2.1] at hne
    have hr := exec_stateByTable hd s.station.settled_acted hx hne
    rw [← hf] at hr
    exact hr.congr hset (by rw [hv])

end Sys2Proof.Machine
end

section
namespace Sys2Proof.Machine

/-! ### A write cut short leaves a mixture (R33) -/

/-- Each bit of a string is that of one of two others at its position. -/
def MixedBits (old new got : List Bool) : Prop := ∀ j : Nat, got[j]? = old[j]? ∨ got[j]? = new[j]?

theorem MixedBits.append {old new got old' new' got' : List Bool} (h : MixedBits old new got)
    (h' : MixedBits old' new' got') (ho : old.length = got.length) (hn : new.length = got.length) :
    MixedBits (old ++ old') (new ++ new') (got ++ got') := fun j => by
  rw [List.getElem?_append, List.getElem?_append, List.getElem?_append, ho, hn]
  split
  · exact h j
  · exact h' _

theorem mixedBits_singleton (c x y : Bool) : MixedBits [x] [y] [if c then y else x] := fun j => by
  cases c
  · exact .inl rfl
  · exact .inr rfl

theorem bitsOf_getElem? {w : Nat} (x : BitVec w) (j : Nat) :
    (bitsOf x)[j]? = if j < w then some (x.getMsbD j) else none := by
  unfold bitsOf
  by_cases h : j < w <;> simp [h]

theorem bitsOf_length {w : Nat} (x : BitVec w) : (bitsOf x).length = w := by simp [bitsOf]

/-- Bits of the new value where the mask is set, of the old one elsewhere. -/
theorem mixBits_mixed {w : Nat} (mask old new : BitVec w) :
    MixedBits (bitsOf old) (bitsOf new) (bitsOf (mixBits mask old new)) := fun j => by
  simp only [bitsOf_getElem?, mixBits, BitVec.getMsbD_or, BitVec.getMsbD_and, BitVec.getMsbD_not]
  cases mask.getMsbD j <;> by_cases hj : j < w <;> simp [hj]

theorem mixPlace_mixture (mask : BitVec 197) (old new : Place) : Place.MixtureOf old new (mixPlace mask old new) := by
  have h : MixedBits ([old.used] ++ (bitsOf old.pool ++ (bitsOf old.fp ++ (bitsOf old.locator ++ bitsOf old.count))))
      ([new.used] ++ (bitsOf new.pool ++ (bitsOf new.fp ++ (bitsOf new.locator ++ bitsOf new.count)))) _ :=
    (mixedBits_singleton (mask.getLsbD 196) old.used new.used).append
      ((mixBits_mixed (mask.extractLsb' 192 4) old.pool new.pool).append
        ((mixBits_mixed (mask.extractLsb' 64 128) old.fp new.fp).append
          ((mixBits_mixed (mask.extractLsb' 16 48) old.locator new.locator).append
            (mixBits_mixed (mask.extractLsb' 0 16) old.count new.count)
            (by simp [bitsOf_length]) (by simp [bitsOf_length]))
          (by simp [bitsOf_length]) (by simp [bitsOf_length]))
        (by simp [bitsOf_length]) (by simp [bitsOf_length])) rfl rfl
  simpa [Place.MixtureOf, MixedBits, Place.bits, mixPlace] using h

theorem tornBucket_mixture (n : Nat) (old new : Bucket) : Bucket.MixtureOf old new (tornBucket n old new) := by
  refine ⟨?_, fun i => ?_⟩
  · unfold tornBucket
    cases Config.tornCodeIsNew n
    · exact .inl rfl
    · exact .inr rfl
  · have hi : (tornBucket n old new).places[i] = mixPlace (Config.tornPlace n i) old.places[i] new.places[i] := by
      simp [tornBucket]
    rw [hi]
    exact mixPlace_mixture _ _ _

/-- Table memory after a reset is as R31 to R33 rule. -/
theorem Station.tableAfterReset_of_tear {s t : Station} (h : t.index.table = s.tearInFlight.index.table) :
    s.TableAfterReset t := by
  have torn : ∀ b k, s.tearInFlight = s.tearWrite b k →
      Bucket.MixtureOf (s.index.table.read b) k (t.index.table.read b) ∧
        ∀ a, a ≠ b → t.index.table.read a = s.index.table.read a := fun b k e => by
    have ht : t.index.table = s.index.table.write b (tornBucket s.torn (s.index.table.read b) k) := by rw [h, e]; rfl
    rw [ht]
    exact ⟨by rw [ShardTable.read_write_self]; exact tornBucket_mixture _ _ _,
      fun a ha => ShardTable.read_write_other _ _ ha⟩
  refine ⟨fun hw hs => ?_, fun b k hw => torn b k ?_, fun b hw hs => torn b emptyBucket ?_⟩
  · rw [h, Station.tearInFlight, hw, hs]
  · rw [Station.tearInFlight, hw]
  · rw [Station.tearInFlight, hw, hs]

/-! ### What else changes table memory (R14, R23, R28) -/

theorem Station.bucketOperation_table (s : Station) (b : Nat) {decide : BucketRead → Decision}
    (h : ∀ r : BucketRead, r.station.index.ClaimsOrRecords (decide r).station.index) :
    (s.bucketOperation b decide).index.table = s.index.table := by
  obtain ⟨x, hx⟩ := s.openBucket_index b
  obtain ⟨v, w, hd⟩ := h (s.openBucket b)
  change (decide (s.openBucket b)).station.index.table = _
  rw [hd, hx]

theorem Station.takeItem_table {α : Type} {select : WorkItem → Option α} {act : α → Station → Station} {s : Station}
    (h : ∀ x (u : Station), (act x u).index.table = u.index.table) :
    (s.takeItem select act).index.table = s.index.table :=
  Station.takeItem_keeps (fun u => u.index.table) (fun _ _ => rfl) h

/-- The commands that may change table memory. -/
def Instr.touchesTable : Instr → Bool
  | .coldReset | .warmReset | .bucketWriteDone | .scrubWriteDone => true
  | _ => false

/-- Every other command leaves it as it is. -/
theorem exec_table {c : Instr} (hd : Instr.isDeadlineRow c = false) (hc : Instr.touchesTable c = false) {s t : State}
    (ha : s.station.DeadlinesActed) (h : exec c s = .next t) : t.station.index.table = s.station.index.table := by
  have peer : ∀ p (u : Station), (u.clearPeer p).index.table = u.index.table := fun p u => by
    obtain ⟨v, a, hv⟩ := u.clearPeer_index p
    rw [hv]
  cases hm : Instr.touchesMemory c with
  | false => exact congrArg (·.2.2.2) (exec_memory hd hm ha h)
  | true =>
    rw [← Station.settled_of_acted ha]
    cases c with
    | ask => cases h; exact Station.takeItem_table fun _ u => u.bucketOperation_table _ (decideAsk_index _ _)
    | commit => cases h; exact Station.takeItem_table fun _ u => u.bucketOperation_table _ (decideCommit_index _ _ _)
    | drop => cases h; exact Station.takeItem_table fun _ u => u.bucketOperation_table _ (decideDrop_index _ _)
    | releaseItem => cases h; exact Station.takeItem_table fun _ u => u.bucketOperation_table _ (decideRelease_index _ _ _)
    | leaseExpiry =>
      cases h
      dsimp only
      (repeat' split)
      · exact Station.bucketOperation_table _ _ (decideExpiry_index _ _)
      all_goals rfl
    | peerLost | peerRestarted => cases h; exact Station.takeItem_table peer
    | start =>
      cases h
      refine Station.takeHead_keeps (fun u => u.index.table) (fun _ _ => rfl) fun e x y hy => ?_
      obtain ⟨z, hz⟩ := Station.decideStart_index hy
      rw [hz]
    | coldReset | warmReset | bucketWriteDone | scrubWriteDone => cases hc
    | _ => cases hm

/-- The rule for bucket `a` in a step with a command at the front that takes `s` to `t`. -/
def Station.BucketByRule (front : Option Instr) (a : Nat) (s t : Station) : Prop :=
  (front = some .bucketWriteDone ∧ s.index.write = some (a, t.index.table.read a)) ∨
  (front = some .scrubWriteDone ∧ s.control.state = .scrub ∧ s.index.scrub = some a ∧
    t.index.table.read a = emptyBucket) ∨
  ((front = some .coldReset ∨ front = some .warmReset) ∧ t.control.state = .config ∧
    ∃ k, (s.index.write = some (a, k) ∨ s.index.write = none ∧ s.index.scrub = some a ∧ k = emptyBucket) ∧
      Bucket.MixtureOf (s.index.table.read a) k (t.index.table.read a))

/-- A bucket that a reset changed is the one whose write was in flight, and is left a mixture (R31 to R33). -/
theorem Station.TableAfterReset.mixture {s t : Station} (h : s.TableAfterReset t) {a : Nat}
    (hne : t.index.table.read a ≠ s.index.table.read a) :
    ∃ k, (s.index.write = some (a, k) ∨ s.index.write = none ∧ s.index.scrub = some a ∧ k = emptyBucket) ∧
      Bucket.MixtureOf (s.index.table.read a) k (t.index.table.read a) := by
  obtain ⟨hkept, hwrite, hscrub⟩ := h
  cases hw : s.index.write with
  | some x =>
    obtain ⟨b, k⟩ := x
    obtain ⟨hm, ho⟩ := hwrite b k hw
    obtain rfl : a = b := by_contra fun hab => hne (ho a hab)
    exact ⟨k, .inl rfl, hm⟩
  | none =>
    cases hs : s.index.scrub with
    | none => exact absurd (by rw [hkept hw hs]) hne
    | some b =>
      obtain ⟨hm, ho⟩ := hscrub b hw hs
      obtain rfl : a = b := by_contra fun hab => hne (ho a hab)
      exact ⟨emptyBucket, .inr ⟨rfl, rfl, rfl⟩, hm⟩

theorem exec_bucketByRule {c : Instr} (hd : Instr.isDeadlineRow c = false) {s t : State} {a : Nat}
    (ha : s.station.DeadlinesActed) (h : exec c s = .next t)
    (hne : t.station.index.table.read a ≠ s.station.index.table.read a) :
    s.station.BucketByRule (some c) a t.station := by
  cases hc : Instr.touchesTable c with
  | false => exact absurd (by rw [exec_table hd hc ha h]) hne
  | true =>
    cases c with
    | coldReset =>
      have e := exec_coldReset_eq ha h
      exact .inr (.inr ⟨.inl rfl, by rw [e]; rfl, (Station.tableAfterReset_of_tear (by rw [e]; rfl)).mixture hne⟩)
    | warmReset =>
      rcases exec_warmReset_cases ha h with ⟨-, e⟩ | ⟨-, e⟩
      · exact absurd (by rw [e]) hne
      · exact .inr (.inr ⟨.inr rfl, by rw [e]; rfl, (Station.tableAfterReset_of_tear (by rw [e]; rfl)).mixture hne⟩)
    | bucketWriteDone =>
      rcases exec_bucketWriteDone_cases ha h with e | ⟨b, k, hw, e⟩ <;> rw [e] at hne
      · exact absurd rfl hne
      · obtain rfl : a = b := by_contra fun hab => hne (ShardTable.read_write_other _ _ hab)
        exact .inl ⟨rfl, by rw [e, hw]; simp⟩
    | scrubWriteDone =>
      rcases exec_scrubWriteDone_cases ha h with e | ⟨b, hb, hst, e⟩ <;> rw [e] at hne
      · exact absurd rfl hne
      · obtain ⟨x, hx⟩ := s.station.scrubDone_index b
        rw [hx] at hne
        obtain rfl : a = b := by_contra fun hab => hne (ShardTable.read_scrubWrite_other _ hab)
        exact .inr (.inl ⟨rfl, hst, hb, by rw [e, hx]; simp⟩)
    | _ => cases hc

/-- Settles O17. -/
theorem tableMemoryChangesByRule : Obligations.TableMemoryChangesByRule := by
  intro s t a h hne
  rcases step_quiet_or_command h with ⟨-, v, hv⟩ | ⟨c, rest, hf, hd, hx⟩
  · exact absurd (by rw [hv]) hne
  · obtain ⟨-, ⟨v, hv⟩, -⟩ := s.station.settled_parts
    have hstate := (Control.settings_eq s.station.settled_settings).2.2.2.1
    have hr : s.station.settled.BucketByRule (some c) a t.station :=
      exec_bucketByRule hd s.station.settled_acted hx (by rw [hv]; exact hne)
    unfold Station.BucketByRule at hr
    rw [hv, hstate, ← hf] at hr
    exact hr

end Sys2Proof.Machine
end

section
namespace Sys2Proof.Machine

/-! ### Which operations leave the answers that wait to be handed on -/

@[simp] theorem Station.deliverInbound_answers (s : Station) : s.deliverInbound.index.answers = s.index.answers := by
  unfold Station.deliverInbound
  (repeat' split) <;> rfl

@[simp] theorem Station.deliverSelf_answers (i : EntryIndex) (s : Station) :
    (s.deliverSelf i).index.answers = s.index.answers := by
  unfold Station.deliverSelf
  split <;> rfl

@[simp] theorem Station.deliverHeld_answers (s : Station) : s.deliverHeld.index.answers = s.index.answers := by
  unfold Station.deliverHeld
  split <;> rfl

@[simp] theorem Station.admitSource_answers (x : Source) (s : Station) :
    (s.admitSource x).index.answers = s.index.answers := by
  unfold Station.admitSource
  dsimp only
  (repeat' split) <;> simp

@[simp] theorem Station.offerPeerItem_answers (i : WorkItem) (s : Station) :
    (s.offerPeerItem i).index.answers = s.index.answers := by
  unfold Station.offerPeerItem
  split <;> rfl

@[simp] theorem Station.cleanupPeer_answers (r : Bool) (p : StationNo) (s : Station) :
    (s.cleanupPeer r p).index.answers = s.index.answers := by
  simp [Station.cleanupPeer]

@[simp] theorem Station.silencePeer_answers (p : StationNo) (s : Station) :
    (s.silencePeer p).index.answers = s.index.answers := by
  simp [Station.silencePeer]

@[simp] theorem Station.takeBeacon_answers (s : Station) : s.takeBeacon.index.answers = s.index.answers := by
  unfold Station.takeBeacon Station.decideBeacon
  dsimp only
  (repeat' split) <;> simp

@[simp] theorem Station.dispatchRequest_answers (s : Station) : s.dispatchRequest.index.answers = s.index.answers := by
  unfold Station.dispatchRequest
  (repeat' split) <;> simp

@[simp] theorem Station.handOnSelf_answers (i : EntryIndex) (s : Station) :
    (s.handOnSelf i).index.answers = s.index.answers := by
  unfold Station.handOnSelf
  (repeat' split) <;> simp

@[simp] theorem Station.tellProducer_answers (p : Producer) (r : Report) (s : Station) :
    (s.tellProducer p r).index.answers = s.index.answers := by
  cases p with
  | lane => cases r <;> simp [Station.tellProducer]
  | _ => rfl

@[simp] theorem Station.appendReport_answers (p : Producer) (r : Report) (s : Station) :
    (s.appendReport p r).index.answers = s.index.answers := by
  unfold Station.appendReport
  split <;> simp

/-- Apart from the work of the index unit, which ANSWER_HAND_ON ends, and the commands that touch its memory, no command
touches them. -/
theorem exec_answers {c : Instr} (hd : Instr.isDeadlineRow c = false) (hm : Instr.touchesMemory c = false)
    (hc : c ≠ .answerHandOn) {s t : State} (ha : s.station.DeadlinesActed) (h : exec c s = .next t) :
    t.station.index.answers = s.station.index.answers := by
  cases hi : Instr.touchesIndex c with
  | false => rw [exec_index hd hi ha h]
  | true =>
    rw [← Station.settled_of_acted ha]
    cases c with
    | workQueueAdmit | requestHandOn | inboundDispatch | peerSilent | beaconTaken | reportAppend =>
      cases h
      dsimp only
      (repeat' split) <;> simp
    | answerHandOn => exact absurd rfl hc
    | coldReset | warmReset | start | leaseExpiry | ask | commit | drop | releaseItem | peerLost | peerRestarted
    | bucketWriteDone | scrubWriteDone => cases hm
    | _ => cases hi

/-- With no answer waiting, ANSWER_HAND_ON does not arise. -/
theorem exec_answerHandOn_idle {s t : State} (ha : s.station.DeadlinesActed) (hn : s.station.index.answers = [])
    (h : exec .answerHandOn s = .next t) : t.station = s.station := by
  cases h
  dsimp only
  rw [Station.settled_of_acted ha, hn]

/-! ### The operations of the index unit run in RUNNING only (R29, R40) -/

/-- The commands that begin an operation of the index unit. -/
def Instr.beginsOperation : Instr → Bool
  | .ask | .commit | .drop | .releaseItem | .leaseExpiry | .peerLost | .peerRestarted => true
  | _ => false

theorem Station.takeItem_running {α : Type} (select : WorkItem → Option α) (act : α → Station → Station) (s : Station) :
    s.takeItem select act = s ∨ s.control.state = .running :=
  (s.takeItem_cases select act).imp_right fun ⟨_, _, _, _, _, ht, _⟩ =>
    (Station.indexFree_iff.1 (Station.takesItem_iff.1 ht).1).1

/-- Outside RUNNING they change nothing. -/
theorem exec_operation_running {c : Instr} (hc : Instr.beginsOperation c = true) {s t : State}
    (ha : s.station.DeadlinesActed) (h : exec c s = .next t) :
    t.station = s.station ∨ s.station.control.state = .running := by
  rw [← Station.settled_of_acted ha]
  cases c with
  | ask | commit | drop | releaseItem | peerLost | peerRestarted =>
    cases h
    exact Station.takeItem_running _ _ _
  | leaseExpiry =>
    cases h
    dsimp only
    (repeat' split)
    · exact .inr (Station.indexFree_iff.1 ‹_›).1
    all_goals exact .inl rfl
  | _ => cases hc

/-! ### The scrub leaves empty buckets behind (R28, R29) -/

section ScrubSound
variable {s t : Station}

/-- The scrub is sound where what it reads is as it was. -/
theorem Station.ScrubSound.of_same (h : s.ScrubSound) (hst : t.control.state = s.control.state)
    (hw : t.index.write = s.index.write) (ha : t.index.answers = s.index.answers)
    (hs : t.index.scrub = s.index.scrub) (ht : t.index.table = s.index.table) : t.ScrubSound where
  quiet := by rw [hst, hw, ha]; exact h.quiet
  range := by rw [hs]; exact h.range
  written := by rw [hs, ht]; exact h.written

/-- In RUNNING the index unit is free to work on anything but the scrub and table memory. -/
theorem Station.ScrubSound.of_running (h : s.ScrubSound) (hst : t.control.state = .running)
    (hs : t.index.scrub = s.index.scrub) (ht : t.index.table = s.index.table) : t.ScrubSound where
  quiet hn := absurd hst hn
  range := by rw [hs]; exact h.range
  written := by rw [hs, ht]; exact h.written

/-- With no scrub in flight, only the index unit's rest outside RUNNING counts. -/
theorem Station.scrubSound_of_none (hs : t.index.scrub = none)
    (hq : t.control.state ≠ .running → t.index.write = none ∧ t.index.answers = []) : t.ScrubSound where
  quiet := hq
  range := by simp [hs]
  written := by simp [hs]

/-- A START that is taken begins the scrub at bucket 0, with none below it, or enters RUNNING (R185). -/
theorem Station.ScrubSound.startTaken (h : s.ScrubSound) (hst : s.control.state = .config) : s.startTaken.ScrubSound := by
  obtain ⟨x, hx⟩ := s.startTaken_index
  have hstate : s.startTaken.control.state = if s.control.scrubOwed then .scrub else .running :=
    (congrArg Control.state s.startTaken_settings :)
  have hscrub := s.startTaken_scrub
  have hquiet := h.quiet (by rw [hst]; decide)
  cases howed : s.control.scrubOwed with
  | true =>
    rw [howed] at hscrub
    refine ⟨fun _ => by rw [hx]; exact hquiet, fun b hb => ?_, fun b hb a hab => ?_⟩
    all_goals obtain rfl : 0 = b := Option.some.inj (hscrub.symm.trans hb)
    · decide
    · exact absurd hab (Nat.not_lt_zero a)
  | false =>
    rw [howed] at hstate hscrub
    exact h.of_running hstate hscrub (by rw [hx])

theorem Station.ScrubSound.decideStart {e : CmdEntry} (h : s.ScrubSound) (hd : s.decideStart e = some t) :
    t.ScrubSound := by
  unfold Station.decideStart at hd
  split at hd
  · cases hd; exact h.of_same rfl rfl rfl rfl rfl
  · rename_i hst
    split at hd
    · cases hd
    split at hd
    · cases hd; exact h.startTaken (by simpa using hst)
    · cases hd; exact h.of_same rfl rfl rfl rfl rfl

/-- A scrub write leaves its bucket empty, like those below it, and the next one begins; or the station is RUNNING (R28). -/
theorem Station.ScrubSound.scrubDone (h : s.ScrubSound) (hst : s.control.state = .scrub) {b : Nat}
    (hb : s.index.scrub = some b) : (s.scrubDone b).ScrubSound := by
  by_cases hlast : b + 1 < 524288
  · rw [Station.scrubDone_next hlast]
    refine ⟨fun _ => h.quiet (by rw [hst]; decide), fun c hc => ?_, fun c hc a hac => ?_⟩
    all_goals obtain rfl : b + 1 = c := Option.some.inj hc
    · exact hlast
    · change (s.index.table.scrubWrite b).read a = emptyBucket
      rcases Nat.lt_succ_iff_lt_or_eq.1 hac with hlt | rfl
      · rw [ShardTable.read_scrubWrite_other _ (Nat.ne_of_lt hlt)]
        exact h.written b hb a hlt
      · exact ShardTable.read_scrubWrite_self _ _
  · rw [Station.scrubDone_last (Nat.not_lt.1 hlast)]
    exact Station.scrubSound_of_none (by simp) fun hn => absurd (Station.enterRunning_state _ _) hn

end ScrubSound

theorem scrubSound_keptByDeadlines : KeptByDeadlines Station.ScrubSound := fun s d ds _ h => by
  obtain ⟨-, ⟨v, hv⟩, -⟩ := Station.actDeadline_parts d { s with clock.reached := ds }
  have hst := (Control.settings_eq (Station.actDeadline_settings d { s with clock.reached := ds })).2.2.2.1
  exact h.of_same hst (by rw [hv]) (by rw [hv]) (by rw [hv]) (by rw [hv])

theorem Instr.touchesState_of_memory {c : Instr} (h : Instr.touchesMemory c = false) : Instr.touchesState c = false := by
  cases c with
  | coldReset | warmReset | start | scrubWriteDone => cases h
  | _ => rfl

/-- A command that neither begins an operation nor ends a bucket write, START or reset leaves all that the scrub reads; and
ANSWER_HAND_ON finds no answer outside RUNNING. -/
theorem exec_keeps_scrubSound_aside {c : Instr} {s t : State} (hd : Instr.isDeadlineRow c = false)
    (hm : Instr.touchesMemory c = false) (ha : s.station.DeadlinesActed) (hs : s.station.ScrubSound)
    (h : exec c s = .next t) : t.station.ScrubSound := by
  have hst := exec_state hd (Instr.touchesState_of_memory hm) ha h
  have hmem := exec_memory hd hm ha h
  simp only [IndexUnit.memory, Prod.mk.injEq] at hmem
  obtain ⟨-, hw, hscrub, htable⟩ := hmem
  by_cases hc : c = .answerHandOn
  · subst hc
    by_cases hr : s.station.control.state = .running
    · exact hs.of_running (hst.trans hr) hscrub htable
    · rw [exec_answerHandOn_idle ha (hs.quiet hr).2 h]
      exact hs
  · exact hs.of_same hst hw (exec_answers hd hm hc ha h) hscrub htable

theorem exec_keeps_scrubSound {c : Instr} {s t : State} (hd : Instr.isDeadlineRow c = false)
    (ha : s.station.DeadlinesActed) (hstart : s.station.StartSound) (hs : s.station.ScrubSound)
    (h : exec c s = .next t) : t.station.ScrubSound := by
  cases hm : Instr.touchesMemory c with
  | false => exact exec_keeps_scrubSound_aside hd hm ha hs h
  | true =>
    cases c with
    | coldReset => rw [exec_coldReset_eq ha h]; exact Station.scrubSound_of_none rfl fun _ => ⟨rfl, rfl⟩
    | warmReset =>
      rcases exec_warmReset_cases ha h with ⟨-, e⟩ | ⟨-, e⟩ <;> rw [e]
      · exact hs.of_same rfl rfl rfl rfl rfl
      · exact Station.scrubSound_of_none rfl fun _ => ⟨rfl, rfl⟩
    | start =>
      rcases exec_start_cases ha h with e | ⟨e, rest, he⟩
      · rw [e]; exact hs
      · have hu : ({ s.station with port.fifo := rest } : Station).ScrubSound := hs.of_same rfl rfl rfl rfl rfl
        exact hu.decideStart he
    | bucketWriteDone =>
      rcases exec_bucketWriteDone_cases ha h with e | ⟨b, k, hw, e⟩ <;> rw [e]
      · exact hs
      · have hr : s.station.control.state = .running := by_contra fun hn => by
          rw [(hs.quiet hn).1] at hw
          cases hw
        exact Station.scrubSound_of_none (hstart.scrub_none (by rw [hr]; decide)) fun hn => absurd hr hn
    | scrubWriteDone =>
      rcases exec_scrubWriteDone_cases ha h with e | ⟨b, hb, hst, e⟩ <;> rw [e]
      · exact hs
      · exact hs.scrubDone hst hb
    | ask | commit | drop | releaseItem | leaseExpiry | peerLost | peerRestarted =>
      rcases exec_operation_running rfl ha h with e | hr
      · rw [e]; exact hs
      · exact hs.of_running ((exec_state hd rfl ha h).trans hr) (exec_scrub hd (by simp) ha h) (exec_table hd rfl ha h)
    | _ => cases hm

/-- Settles O13. -/
theorem scrubLeavesEmptyBucketsBehind : Obligations.ScrubLeavesEmptyBucketsBehind := by
  intro s t hstart hs h
  exact (step_keeps (P := fun u => u.StartSound ∧ u.ScrubSound) (Q := fun u => u.StartSound ∧ u.ScrubSound)
    (fun _ h => h)
    (fun s d ds hd h => ⟨startSound_keptByDeadlines s d ds hd h.1, scrubSound_keptByDeadlines s d ds hd h.2⟩)
    (fun s _ h => ⟨h.1.refclkPeriod, h.2.of_same (by simp) (by simp) (by simp) (by simp) (by simp)⟩)
    (fun c s t hd ha h hx => ⟨exec_keeps_startSound hd ha h.1 hx, exec_keeps_scrubSound hd ha h.1 h.2 hx⟩)
    ⟨hstart, hs⟩ h).2

end Sys2Proof.Machine
end

section
namespace Sys2Proof.Machine

/-! ### Resets and releases (R182, R183, Table 11.3) -/

/-- Every block but station control and table memory is at its reset value, whatever station control then becomes. -/
theorem Station.resetBlocks_blocksReset (s : Station) (c : Control) :
    Station.BlocksReset { s.resetBlocks with control := c } where
  staging i := Vector.getElem_replicate i.isLt
  commands := ⟨rfl, rfl, rfl⟩
  reports := ⟨rfl, rfl, rfl, rfl⟩
  fetch := rfl
  lanes l := Vector.getElem_replicate l.isLt
  laneUnit := ⟨rfl, rfl⟩
  contexts l := Vector.getElem_replicate l.isLt
  chunker := ⟨rfl, rfl, rfl, rfl⟩
  entries i := Vector.getElem_replicate i.isLt
  exchange := ⟨rfl, rfl, rfl, rfl, rfl, rfl, rfl⟩
  claims p := Vector.getElem_replicate p.isLt
  records p := Vector.getElem_replicate p.isLt
  index := ⟨rfl, rfl, rfl, rfl, rfl, rfl⟩
  bus := ⟨rfl, rfl, rfl, rfl, rfl, rfl⟩
  peers p := Vector.getElem_replicate p.isLt
  roster := ⟨rfl, rfl, rfl, rfl, rfl, rfl, rfl, rfl⟩
  clock := ⟨rfl, rfl, rfl, rfl⟩

theorem Station.resetBlocks_fetch (s : Station) : s.resetBlocks.fetch = { s.fetch with burst := none } := by
  simp [Station.resetBlocks]

/-- What the deadlines acted on first can change is nothing that table memory after a reset depends on. -/
theorem Station.TableAfterReset.of_settled {s t : Station} (h : s.settled.TableAfterReset t) : s.TableAfterReset t := by
  obtain ⟨-, ⟨v, hv⟩, -⟩ := s.settled_parts
  unfold Station.TableAfterReset at h ⊢
  rw [hv] at h
  exact h

/-- COLD_RESET as the deadlines leave the station, and then its blocks and station control reset. -/
theorem exec_coldReset_station (s : Station) (q : List Instr) : exec .coldReset ⟨s, q⟩ =
    .next ⟨{ s.settled.resetBlocks with control := s.settled.control.assertCold }, q⟩ := by
  simp [exec, execColdReset]

theorem exec_warmReset_station {s : Station} (h : s.control.coldPin = false) (q : List Instr) :
    exec .warmReset ⟨s, q⟩ =
      .next ⟨{ s.settled.resetBlocks with control := s.settled.control.assertWarm }, q⟩ := by
  have hp : s.settled.control.coldPin = false := (Control.settings_eq s.settled_settings).1.trans h
  simp [exec, execWarmReset, hp]

/-- Settles O18. -/
theorem resetsAndReleases : Obligations.ResetsAndReleases := by
  refine ⟨fun s q => ⟨⟨_, exec_coldReset_station s q, s.settled.resetBlocks_blocksReset _,
      (Station.tableAfterReset_of_tear rfl).of_settled, ?_, ?_⟩,
    fun hp => ⟨_, exec_warmReset_station hp q, s.settled.resetBlocks_blocksReset _,
      (Station.tableAfterReset_of_tear rfl).of_settled, ?_, ?_⟩, fun ha hp => ?_⟩,
    fun s ha q n c a k r => ⟨fun hp => ?_, fun hp => ?_, ?_⟩⟩
  · exact s.settled.resetBlocks_fetch.trans (by simp)
  · rintro levels rfl
    obtain ⟨⟨v, hv⟩, -⟩ := s.settled_parts
    dsimp only
    rw [hv]
    rfl
  · exact s.settled.resetBlocks_fetch.trans (by simp)
  · obtain ⟨⟨v, hv⟩, -⟩ := s.settled_parts
    dsimp only
    rw [hv]
    rfl
  · simp [exec, execWarmReset, Station.settled_of_acted ha, hp]
  · simp [exec, execColdRelease, Station.settled_of_acted ha, hp]
  · simp [exec, execColdRelease, Station.settled_of_acted ha, hp]
  · simp [exec, execWarmRelease, Station.settled_of_acted ha]

end Sys2Proof.Machine
end

section
namespace Sys2Proof.Machine

/-! ### The state after reset is sound (R31, R61, R95, R133, R151, R166, R180, R183) -/

theorem Station.reset_entry (i : EntryIndex) : Station.reset.entry i = {} := Vector.getElem_replicate i.isLt

theorem Station.reset_laneAt (l : LaneNo) : Station.reset.laneAt l = {} := Vector.getElem_replicate l.isLt

theorem Station.reset_peer (p : StationNo) : Station.reset.peer p = {} := by
  unfold Station.peer
  rw [Station.reset_roster]
  by_cases h : p.toNat < 15 <;> simp [Roster.reset, h]

theorem Station.reset_withinBounds : Station.reset.WithinBounds where
  commands := by decide
  reports := by decide
  threshold := by decide
  transmit := by decide
  inbound := by decide
  work := by decide
  hostReleases := by decide
  segments l := by rw [Station.reset_laneAt]; decide

theorem Station.reset_tablesCanonical : Station.reset.TablesCanonical where
  pools := ⟨.nil, nofun⟩
  table := ⟨.nil, nofun⟩

theorem Station.reset_rosterSound : Station.reset.RosterSound where
  heard p := by rw [Station.reset_peer]; nofun
  silence p := by rw [Station.reset_peer]; nofun
  outside p _ := Station.reset_peer p
  own := Station.reset_peer _
  idle _ p := Station.reset_peer p

theorem Bus.reset_transmitSound : Bus.reset.TransmitSound where
  ordered := .nil
  produced := nofun
  attempts := nofun
  oneOnLine := by decide

/-- A FREE entry that holds nothing is sound. -/
theorem Entry.sound_default : ({} : Entry).Sound where
  free _ := rfl
  kind h := absurd rfl h
  bound := nofun
  request := nofun
  deadline := nofun
  attempts := nofun
  closing := nofun

/-- A FREE lane with an empty window, queue and abort list is sound. -/
theorem Lane.sound_default : ({} : Lane).Sound where
  window := ⟨by simp, by simp, by simp, by simp⟩
  queue := ⟨by simp, by simp, by simp⟩
  abortFree _ := rfl
  abortEnds := nofun
  opened := nofun

theorem Station.reset_recipeHeld (b : Binding) : ¬Station.reset.recipeHeld b := nofun

theorem Station.reset_slotsMatched : Station.reset.SlotsMatched where
  windows l := by rw [Station.reset_laneAt]; decide
  free l _ := by rw [Station.reset_laneAt]
  room := nofun
  digests := ⟨.nil, nofun⟩
  lookups := ⟨.nil, nofun⟩
  bound i b h := by rw [Station.reset_entry] at h; cases h
  once i j b h := by rw [Station.reset_entry] at h; cases h
  held b h := absurd h (Station.reset_recipeHeld b)
  aborts l r h := by rw [Station.reset_laneAt] at h; cases h

theorem Station.reset_writesSound : Station.reset.WritesSound where
  write := nofun
  queued := nofun
  held := nofun
  inbound := nofun
  committing i h := by rw [Station.reset_entry] at h; cases h

/-- Settles O3. -/
theorem resetStateIsSound : Obligations.ResetStateIsSound :=
  ⟨rfl, Station.reset_withinBounds, Station.reset_tablesCanonical, Station.claimsSound_of_empty rfl,
    Station.startSound_of_config rfl rfl rfl rfl rfl, Station.reset_rosterSound, Bus.reset_transmitSound,
    fun i => Station.reset_entry i ▸ Entry.sound_default, fun l => Station.reset_laneAt l ▸ Lane.sound_default,
    Station.scrubSound_of_none rfl fun _ => ⟨rfl, rfl⟩, Station.reset_slotsMatched, Station.reset_writesSound, rfl⟩

end Sys2Proof.Machine
end

section
namespace Sys2Proof.Machine

/-! ### A frame joins the transmit queue behind those of its class and lower ones (R138) -/

theorem txInsert_append {f : TxFrame} {xs ys : List TxFrame} (hx : ∀ g ∈ xs, g.frame.body.cls ≤ f.frame.body.cls)
    (hy : ∀ g ∈ ys, ¬g.frame.body.cls ≤ f.frame.body.cls) : txInsert f (xs ++ ys) = xs ++ f :: ys := by
  induction xs with
  | nil =>
    cases ys with
    | nil => rfl
    | cons g ys => exact if_neg (hy g List.mem_cons_self)
  | cons g xs ih =>
    exact (if_pos (hx g List.mem_cons_self)).trans
      (congrArg (g :: ·) (ih fun x h => hx x (List.mem_cons_of_mem g h)))

/-- A beacon, of the highest class, joins at the tail. -/
theorem txInsert_beacon {f : TxFrame} {fresh : Bool} {size : BitVec 4} (h : f.frame.body = .beacon fresh size)
    (q : List TxFrame) : txInsert f q = q ++ [f] := by
  have hmax : ∀ c : BitVec 2, c ≤ 3 := by decide
  rw [← List.append_nil q]
  exact (txInsert_append (ys := []) (fun g _ => by rw [h]; exact hmax _) nofun).trans (by simp)

/-! ### The entry to RUNNING (R160, R186, R187) -/

theorem Station.txRoom_iff {s : Station} : s.txRoom = true ↔ s.bus.tx.length < 48 := decide_eq_true_iff

/-- The model's beacon falling due is that of the statements (R160). -/
theorem Station.beaconFallsDue_eq (s : Station) : s.beaconFallsDue = s.afterBeaconDue := by
  have hc : (!s.roster.beaconQueued && s.txRoom) = true ↔ s.roster.beaconQueued = false ∧ s.bus.tx.length < 48 := by
    simp [Station.txRoom_iff]
  unfold Station.beaconFallsDue Station.afterBeaconDue
  by_cases h : s.roster.beaconQueued = false ∧ s.bus.tx.length < 48
  · rw [if_pos h, if_pos (hc.2 h)]
    simp only [Station.txPush, Station.withBeacon, Station.own]
    rw [txInsert_beacon (fresh := s.roster.fresh) (size := s.control.straps.clusterSize) rfl]
  · rw [if_neg h, if_neg (mt hc.1 h)]

/-- The first beacon does not depend on the station state. -/
theorem Station.afterBeaconDue_state (x : StationState) (s : Station) :
    Station.afterBeaconDue { s with control.state := x } =
      { s.afterBeaconDue with control := { s.control with state := x } } := by
  unfold Station.afterBeaconDue
  dsimp only
  split <;> rfl

/-- The station RUNNING, the first beacon due, the beacon deadline 16 ticks on, and STARTED owed. -/
theorem Station.enterRunning_eq (f : Bool) (s : Station) : s.enterRunning f =
    { Station.afterBeaconDue { s with roster := { s.roster with beaconDeadline := some (s.clock.now + 16) } } with
      control := Control.oweStarted f { s.control with state := .running } } := by
  unfold Station.enterRunning
  dsimp only
  rw [Station.beaconFallsDue_eq]
  have h := Station.afterBeaconDue_state .running
    { s with roster := { s.roster with beaconDeadline := some (s.clock.now + 16) } }
  exact (congrArg (fun t : Station => { t with control := t.control.oweStarted f }) h :)

theorem Control.oweStarted_free {c : Control} (h : c.ready = none) (f : Bool) :
    c.oweStarted f = { c with ready := some (.started f c.straps.number c.straps.clusterSize) } := by
  rw [Control.oweStarted, h]

theorem Control.oweStarted_held {c : Control} (h : c.ready ≠ none) (f : Bool) :
    c.oweStarted f = { c with startedOwed := some f } := by
  unfold Control.oweStarted
  split
  · exact absurd ‹_› h
  · rfl

section EnterRunning
variable {s : Station} (f : Bool)

theorem Station.enterRunning_started (h : s.control.ready = none) : s.enterRunning f =
    { Station.afterBeaconDue { s with roster := { s.roster with beaconDeadline := some (s.clock.now + 16) } } with
      control := { s.control with
        state := .running, ready := some (.started f s.control.straps.number s.control.straps.clusterSize) } } := by
  rw [Station.enterRunning_eq, Control.oweStarted_free (c := { s.control with state := .running }) h]

theorem Station.enterRunning_startedOwed (h : s.control.ready ≠ none) : s.enterRunning f =
    { Station.afterBeaconDue { s with roster := { s.roster with beaconDeadline := some (s.clock.now + 16) } } with
      control := { s.control with state := .running, startedOwed := some f } } := by
  rw [Station.enterRunning_eq, Control.oweStarted_held (c := { s.control with state := .running }) h]

end EnterRunning

/-! ### The ends of bucket writes (R14, R23, R28) -/

theorem exec_scrubWriteDone_eq {s : Station} (ha : s.DeadlinesActed) (q : List Instr) {b : Nat}
    (hb : s.index.scrub = some b) (hst : s.control.state = .scrub) :
    exec .scrubWriteDone ⟨s, q⟩ = .next ⟨s.scrubDone b, q⟩ := by
  simp [exec, execScrubWriteDone, Station.settled_of_acted ha, hb, hst]

/-- Settles O40. -/
theorem bucketWritesComplete : Obligations.BucketWritesComplete := by
  intro s ha q b
  refine ⟨fun k hw => ⟨s.index.table.write b k, ?_, ShardTable.read_write_self _ _ _,
    fun a hab => ShardTable.read_write_other _ _ hab⟩, fun hb hst => ⟨s.index.table.scrubWrite b,
    ShardTable.read_scrubWrite_self _ _, fun a hab => ShardTable.read_scrubWrite_other _ hab, fun hnext => ?_,
    fun hlast => ⟨fun hr => ?_, fun hr => ?_⟩⟩⟩
  · simp [exec, execBucketWriteDone, Station.settled_of_acted ha, hw]
  · rw [exec_scrubWriteDone_eq ha q hb hst, Station.scrubDone_next hnext]
  · rw [exec_scrubWriteDone_eq ha q hb hst, Station.scrubDone_last hlast, Station.enterRunning_started true (by exact hr)]
  · rw [exec_scrubWriteDone_eq ha q hb hst, Station.scrubDone_last hlast, Station.enterRunning_startedOwed true (by exact hr)]

/-! ### The answers handed on (R42, R43, R138) -/

/-- R138's turn gives a free place to the index unit. -/
theorem Station.indexTurn_iff {s : Station} : s.indexTurn = true ↔
    (s.pathWaits .bus = true → s.bus.indexWaits = true ∧ s.bus.txLast ≠ .index) := by
  unfold Station.indexTurn
  cases s.pathWaits .bus <;> simp

section HandOn
variable {s : Station} {a : Answer} {rest : List Answer}

theorem Station.handOnAnswer_self (h : a.dest.station = s.control.straps.number) : s.handOnAnswer a rest =
    ({ s with index := { s.index with answers := rest } } : Station).takeAnswer a.dest.tag a.body := if_pos h

theorem Station.handOnAnswer_full (h : a.dest.station ≠ s.control.straps.number) (hf : 48 ≤ s.bus.tx.length) :
    s.handOnAnswer a rest = { s with bus := { s.bus with indexWaits := true } } := by
  have hr : s.txRoom = false := Bool.eq_false_iff.2 (mt Station.txRoom_iff.1 (Nat.not_lt.2 hf))
  exact (if_neg h).trans (if_pos (by rw [hr]; rfl))

theorem Station.handOnAnswer_waits (h : a.dest.station ≠ s.control.straps.number) (hr : s.bus.tx.length < 48)
    (ht : s.indexTurn = false) : s.handOnAnswer a rest = s :=
  (if_neg h).trans ((if_neg (by simp [Station.txRoom_iff.2 hr])).trans (if_neg (by simp [ht])))

/-- With room and its turn, the answer's frame joins behind the frames of class 0. -/
theorem Station.handOnAnswer_frame (h : a.dest.station ≠ s.control.straps.number) (hr : s.bus.tx.length < 48)
    (ht : s.indexTurn = true) {xs ys : List TxFrame} (hq : s.bus.tx = xs ++ ys) (hx : ∀ f ∈ xs, f.frame.body.cls = 0)
    (hy : ∀ f ∈ ys, f.frame.body.cls ≠ 0) : s.handOnAnswer a rest = { s with
      index := { s.index with answers := rest }
      bus := { s.bus with
        tx := xs ++ ⟨⟨s.control.straps.number, a.dest.station, a.dest.tag, .answer a.body⟩, .index, 0, .waiting⟩ :: ys
        indexWaits := false
        txLast := if s.bus.indexWaits then .index else s.bus.txLast } } := by
  have hins : txInsert ⟨answerFrame s.own a, .index, 0, .waiting⟩ s.bus.tx =
      xs ++ ⟨answerFrame s.own a, .index, 0, .waiting⟩ :: ys := by
    rw [hq]
    refine txInsert_append (fun g hg => ?_) fun g hg => ?_
    · rw [hx g hg]; exact BitVec.le_refl 0
    · exact fun hle => hy g hg (BitVec.le_zero_iff.1 hle)
  refine (if_neg h).trans ((if_neg (by simp [Station.txRoom_iff.2 hr])).trans ((if_pos ht).trans ?_))
  simp only [Station.txPush, hins]
  rfl

end HandOn

theorem exec_answerHandOn_eq {s : Station} (ha : s.DeadlinesActed) (q : List Instr) {a : Answer} {rest : List Answer}
    (h : s.index.answers = a :: rest) (hw : s.index.write = none) :
    exec .answerHandOn ⟨s, q⟩ = .next ⟨s.handOnAnswer a rest, q⟩ := by
  simp [exec, execAnswerHandOn, Station.settled_of_acted ha, h, hw]

/-- An answer at the inbound head is given to the exchange unit (R148). -/
theorem exec_inboundDispatch_answer {s : Station} (ha : s.DeadlinesActed) (q : List Instr) {f : Frame} {fs : List Frame}
    {body : AnswerBody} (h : s.bus.inbound = f :: fs) (hb : f.body = .answer body) : exec .inboundDispatch ⟨s, q⟩ =
      .next ⟨({ s with bus := { s.bus with inbound := fs } } : Station).takeAnswer f.tag body, q⟩ := by
  simp [exec, execInboundDispatch, Station.settled_of_acted ha, h, hb]

/-- Settles O41. -/
theorem answersLeaveByTheirPath : Obligations.AnswersLeaveByTheirPath := by
  intro s ha q a rest hans
  refine ⟨fun hw => ?_, fun hw => ?_⟩
  · obtain ⟨x, hx⟩ := Option.ne_none_iff_exists'.1 hw
    simp [exec, execAnswerHandOn, Station.settled_of_acted ha, hans, hx]
  · rw [exec_answerHandOn_eq ha q hans hw]
    refine ⟨fun f hown ht hb => ?_, fun hpeer hfull => ?_, fun xs ys hpeer hroom hturn hq hx hy => ?_,
      fun hpeer hroom hp hturn => ?_⟩
    · rw [Station.handOnAnswer_self hown, ← ht]
      exact (exec_inboundDispatch_answer (s := { s with
        index := { s.index with answers := rest }
        bus := { s.bus with inbound := f :: s.bus.inbound } }) ha q rfl hb).symm
    · rw [Station.handOnAnswer_full hpeer hfull]
    · rw [Station.handOnAnswer_frame hpeer hroom (Station.indexTurn_iff.2 hturn) hq hx hy]
    · have hno : s.indexTurn = false := Bool.eq_false_iff.2 fun h => by
        obtain ⟨hw, hl⟩ := Station.indexTurn_iff.1 h hp
        rcases hturn with h0 | h0
        · rw [hw] at h0; cases h0
        · exact hl h0
      rw [Station.handOnAnswer_waits hpeer hroom hno]

end Sys2Proof.Machine
end

section
namespace Sys2Proof.Machine

/-! ### A damaged bucket found (R22, R24, R25) -/

/-- The station with bucket `b` counted as damaged, its BUCKET_LOST ready, and table memory as given. -/
def Station.bucketLost (b : Nat) (table : ShardTable) (s : Station) : Station :=
  { s.bump .bucketsLost with index := { s.index with table := table, ready := some (.bucketLost b) } }

/-- A decision runs alike whether or not its bucket was found damaged, whatever table memory holds, and one that changes no
place leaves them as they were read. -/
structure DecidesAlike (decide : BucketRead → Decision) : Prop where
  lost : ∀ (places : Vector Place 8) (s : Station) (b : Nat) (table : ShardTable),
    decide ⟨places, true, s.bucketLost b table⟩ =
      { decide ⟨places, false, s⟩ with station := (decide ⟨places, false, s⟩).station.bucketLost b table }
  unchanged : ∀ r : BucketRead, (decide r).changed = false → (decide r).places = r.places

section BucketLost
variable {b : Nat} {table : ShardTable} {s : Station}

theorem Station.bump_bump (c d : Counter) (s : Station) : (s.bump c).bump d = (s.bump d).bump c := by
  by_cases h : c = d
  · rw [h]
  · have hi : c.index.val ≠ d.index.val := fun e => h (Counter.index_injective (Fin.ext e))
    simp [Station.bump, hi, Ne.symm hi, Vector.set_comm _ _ hi]

theorem Station.bump_bucketLost (c : Counter) : (s.bucketLost b table).bump c = (s.bump c).bucketLost b table :=
  congrArg (fun t : Station => { t with index := { s.index with table := table, ready := some (.bucketLost b) } })
    (s.bump_bump .bucketsLost c)

theorem Station.setClaim_bucketLost (p : ClaimPos) (c : Option Claim) :
    (s.bucketLost b table).setClaim p c = (s.setClaim p c).bucketLost b table := rfl

theorem Station.releaseClaim_bucketLost (p : ClaimPos) (c : Claim) : (s.bucketLost b table).releaseClaim p c =
    ((s.releaseClaim p c).1, (s.releaseClaim p c).2.bucketLost b table) := by
  have hn : (s.bucketLost b table).clock = s.clock := rfl
  unfold Station.releaseClaim
  rw [hn]
  cases c.promoted s.clock.now with
  | none => rfl
  | some c' => simp only [Station.setClaim_bucketLost, Station.bump_bucketLost]

theorem Station.askClaimed_bucketLost (x : Pair) (p : ClaimPos) (c : Claim) : (s.bucketLost b table).askClaimed x p c =
    ((s.askClaimed x p c).1, (s.askClaimed x p c).2.bucketLost b table) := by
  unfold Station.askClaimed
  (repeat' split) <;> simp only [Station.setClaim_bucketLost, Station.bump_bucketLost]

theorem Station.askAbsent_bucketLost (x : Pair) (k : Key) (ps : Vector Place 8) : (s.bucketLost b table).askAbsent x k ps =
    ((s.askAbsent x k ps).1, (s.askAbsent x k ps).2.bucketLost b table) := by
  have hf : (s.bucketLost b table).freeClaim = s.freeClaim := rfl
  have hs : ∀ n, bucketSum n ps (s.bucketLost b table) = bucketSum n ps s := fun _ => rfl
  have hn : (s.bucketLost b table).clock = s.clock := rfl
  unfold Station.askAbsent
  rw [hf]
  cases s.freeClaim with
  | none => rfl
  | some p =>
    simp only [hs, hn]
    split <;> simp only [Station.setClaim_bucketLost, Station.bump_bucketLost]

end BucketLost

/-! ### Every decision runs alike -/

theorem decideAsk_alike (x : Pair) (k : Key) : DecidesAlike (decideAsk x k) where
  lost ps s b table := by
    have hc : (s.bucketLost b table).claimOf k = s.claimOf k := rfl
    have hi : (s.bucketLost b table).index.claims = s.index.claims := rfl
    unfold decideAsk
    simp only [hc, hi]
    split
    · rfl
    cases findPlace k ps with
    | some i => simp only [Station.bump_bucketLost]
    | none =>
      cases s.claimOf k with
      | none => simp only [Station.askAbsent_bucketLost]
      | some p =>
        dsimp only
        cases s.index.claims[p] with
        | none => simp only [Station.askAbsent_bucketLost]
        | some c => simp only [Station.askClaimed_bucketLost]
  unchanged r h := by
    unfold decideAsk at h ⊢
    dsimp only at h ⊢
    split
    · rfl
    split
    · simp_all [raiseCount_unchanged]
    · rfl

theorem decideCommit_alike (x : Pair) (k : Key) (l : Locator) : DecidesAlike (decideCommit x k l) where
  lost ps s b table := by
    have hc : (s.bucketLost b table).claimOf k = s.claimOf k := rfl
    have hi : (s.bucketLost b table).index.claims = s.index.claims := rfl
    have hs : ∀ n, bucketSum n ps (s.bucketLost b table) = bucketSum n ps s := fun _ => rfl
    have absent : commitAbsent x k l ⟨ps, true, s.bucketLost b table⟩ =
        { commitAbsent x k l ⟨ps, false, s⟩ with
          station := (commitAbsent x k l ⟨ps, false, s⟩).station.bucketLost b table } := by
      unfold commitAbsent
      simp only [hs]
      split <;> rfl
    unfold decideCommit
    simp only [hc, hi, absent]
    split
    · rfl
    cases findPlace k ps with
    | some i => unfold commitCommitted; dsimp only; split <;> rfl
    | none =>
      cases s.claimOf k with
      | none => rfl
      | some p =>
        dsimp only
        cases s.index.claims[p] <;> rfl
  unchanged r h := by
    unfold decideCommit commitCommitted commitClaimed commitAbsent at h ⊢
    dsimp only at h ⊢
    (repeat' split) <;> simp_all [raiseCount_unchanged]

theorem decideDrop_alike (x : Pair) (k : Key) : DecidesAlike (decideDrop x k) where
  lost ps s b table := by
    have hc : (s.bucketLost b table).claimOf k = s.claimOf k := rfl
    have hi : (s.bucketLost b table).index.claims = s.index.claims := rfl
    unfold decideDrop
    simp only [hc, hi]
    cases s.claimOf k with
    | none => simp only [Station.bump_bucketLost]
    | some p =>
      dsimp only
      cases s.index.claims[p] with
      | none => simp only [Station.bump_bucketLost]
      | some c =>
        dsimp only
        split <;> simp only [Station.releaseClaim_bucketLost, Station.bump_bucketLost]
  unchanged r _ := by
    unfold decideDrop
    dsimp only
    (repeat' split) <;> rfl

theorem decideExpiry_alike (p : ClaimPos) (c : Claim) : DecidesAlike (decideExpiry p c) where
  lost ps s b table := by
    unfold decideExpiry
    simp only [Station.bump_bucketLost, Station.releaseClaim_bucketLost]
  unchanged _ _ := rfl

theorem decideRelease_alike (x : Pair) (k : Key) (l : Locator) : DecidesAlike (decideRelease x k l) where
  lost ps s b table := by
    have hr : (s.bucketLost b table).releaseRecord x.station = s.releaseRecord x.station := rfl
    unfold decideRelease
    simp only [hr]
    cases s.releaseRecord x.station with
    | none => rfl
    | some y => dsimp only; split <;> rfl
  unchanged r h := by
    unfold decideRelease at h ⊢
    dsimp only at h ⊢
    (repeat' split) <;> simp_all [releaseEntry_unchanged]

/-! ### The operation on a damaged bucket (R22 to R25) -/

theorem Station.openBucket_damaged {s : Station} {b : Nat} (h : (s.index.table.read b).wellFormed b = false) :
    s.openBucket b = ⟨emptyPlaces, true, s.bucketLost b s.index.table⟩ :=
  if_neg (by simp [h])

/-- The station with bucket `b` of table memory replaced by the empty one. -/
def Station.emptied (b : Nat) (s : Station) : Station :=
  { s with index := { s.index with table := s.index.table.write b emptyBucket } }

theorem Station.emptied_opens (b : Nat) (s : Station) : (s.emptied b).Opens b emptyPlaces := by
  have hr : (s.emptied b).index.table.read b = emptyBucket := ShardTable.read_write_self _ _ _
  exact ⟨by rw [hr]; exact emptyBucket_wellFormed b, by rw [hr]; rfl⟩

/-- What R24 and R25 add to the operation `op` on the emptied bucket. -/
def Station.DamagedAgainst (s : Station) (b : Nat) (op got : Station) : Prop :=
  ∃ w : Bucket, (op.index.write = some (b, w) ∨ op.index.write = none ∧ w = emptyBucket) ∧
    got = { op.bump .bucketsLost with index := { op.index with
      table := s.index.table, ready := some (.bucketLost b), write := some (b, w) } }

theorem Station.bucketOperation_damaged {s : Station} {b : Nat} (h : (s.index.table.read b).wellFormed b = false)
    {decide : BucketRead → Decision} (hd : DecidesAlike decide) :
    s.DamagedAgainst b ((s.emptied b).bucketOperation b decide) (s.bucketOperation b decide) := by
  have hlost := hd.lost emptyPlaces (s.emptied b) b s.index.table
  have hun := hd.unchanged ⟨emptyPlaces, false, s.emptied b⟩
  rw [Station.bucketOperation_of_opens (s.emptied_opens b)]
  unfold Station.bucketOperation Station.closeBucket
  rw [Station.openBucket_damaged h]
  change decide ⟨emptyPlaces, true, s.bucketLost b s.index.table⟩ = _ at hlost
  rw [hlost]
  generalize decide ⟨emptyPlaces, false, s.emptied b⟩ = d at hun ⊢
  refine ⟨sealPlaces d.places, ?_, rfl⟩
  cases hc : d.changed with
  | true => exact .inl (if_pos hc)
  | false => exact .inr ⟨if_neg (by simp [hc]), by rw [hun hc]; rfl⟩

/-! ### Which operation each command that reads a bucket runs (R40) -/

theorem Station.TakesItem.emptied {s : Station} {item : WorkItem} {rest : List WorkItem} (h : s.TakesItem item rest)
    (b : Nat) : (s.emptied b).TakesItem item rest := ⟨h.state, h.write, h.answers, h.ready, h.due, h.head⟩

theorem Station.TakesExpiry.emptied {s : Station} {p : ClaimPos} {c : Claim} {n : Nat} (h : s.TakesExpiry p c n)
    (b : Nat) : (s.emptied b).TakesExpiry p c n := ⟨h.state, h.write, h.answers, h.ready, h.claim, h.due, h.first⟩

theorem Station.dueAt_eq_some {s : Station} {p : ClaimPos} {n : Nat} :
    s.dueAt p = some n ↔ ∃ c, s.index.claims[p] = some c ∧ c.due = some n := by
  unfold Station.dueAt
  exact Option.bind_eq_some_iff

/-- R40's choice among the due claims. -/
theorem Station.TakesExpiry.firstDue {s : Station} {p : ClaimPos} {c : Claim} {n : Nat} (h : s.TakesExpiry p c n) :
    s.firstDue = some p := by
  have hp : s.dueAt p = some n := Station.dueAt_eq_some.2 ⟨c, h.claim, h.due⟩
  have hmin : ((List.finRange 128).filterMap s.dueAt).min? = some n := by
    rw [List.min?_eq_some_iff]
    refine ⟨List.mem_filterMap.2 ⟨p, List.mem_finRange p, hp⟩, fun m hm => ?_⟩
    obtain ⟨p', -, hp'⟩ := List.mem_filterMap.1 hm
    obtain ⟨c', hc', hd'⟩ := Station.dueAt_eq_some.1 hp'
    rcases h.first p' c' m hc' hd' with hlt | ⟨rfl, -⟩
    · exact Nat.le_of_lt hlt
    · exact Nat.le_refl _
  unfold Station.firstDue
  rw [hmin]
  refine lowestFind_eq_some.2 ⟨beq_iff_eq.2 hp, fun p' hlt => beq_eq_false_iff_ne.2 fun hp' => ?_⟩
  obtain ⟨c', hc', hd'⟩ := Station.dueAt_eq_some.1 hp'
  rcases h.first p' c' n hc' hd' with hn | ⟨-, hle⟩
  · exact Nat.lt_irrefl _ hn
  · exact absurd hlt (Nat.not_lt.2 hle)

/-! Each command's operation on the bucket that it reads. -/

section Operations
variable {s : Station} (ha : s.DeadlinesActed) (q : List Instr) {x : Pair} {k : Key} {l : Locator} {rest : List WorkItem}
include ha

theorem exec_ask_operation (ht : s.TakesItem (.ask x k) rest) : exec .ask ⟨s, q⟩ =
    .next ⟨({ s with index.queue := rest } : Station).bucketOperation (bucketIndex k) (decideAsk x k), q⟩ := by
  simp only [exec, execAsk, runEvent_eq, Station.settled_of_acted ha]
  rw [ht.takeItem_eq (x := (x, k)) rfl]

theorem exec_commit_operation (ht : s.TakesItem (.commit x k l) rest) : exec .commit ⟨s, q⟩ =
    .next ⟨({ s with index.queue := rest } : Station).bucketOperation (bucketIndex k) (decideCommit x k l), q⟩ := by
  simp only [exec, execCommit, runEvent_eq, Station.settled_of_acted ha]
  rw [ht.takeItem_eq (x := (x, k, l)) rfl]

theorem exec_drop_operation (ht : s.TakesItem (.drop x k) rest) : exec .drop ⟨s, q⟩ =
    .next ⟨({ s with index.queue := rest } : Station).bucketOperation (bucketIndex k) (decideDrop x k), q⟩ := by
  simp only [exec, execDrop, runEvent_eq, Station.settled_of_acted ha]
  rw [ht.takeItem_eq (x := (x, k)) rfl]

theorem exec_releaseItem_operation (ht : s.TakesItem (.release x k l) rest) : exec .releaseItem ⟨s, q⟩ =
    .next ⟨({ s with index.queue := rest } : Station).bucketOperation (bucketIndex k) (decideRelease x k l), q⟩ := by
  simp only [exec, execReleaseItem, runEvent_eq, Station.settled_of_acted ha]
  rw [ht.takeItem_eq (x := (x, k, l)) rfl]

theorem exec_leaseExpiry_operation {p : ClaimPos} {c : Claim} {n : Nat} (ht : s.TakesExpiry p c n) :
    exec .leaseExpiry ⟨s, q⟩ = .next ⟨s.bucketOperation c.bucket (decideExpiry p c), q⟩ := by
  have hfree := Station.indexFree_iff.2 ⟨ht.state, ht.write, ht.answers, ht.ready⟩
  have hclaim := ht.claim
  simp only [exec, execLeaseExpiry, runEvent_eq, Station.settled_of_acted ha, ht.firstDue, hclaim, hfree, if_true]

end Operations

/-- A command that reads bucket `b` runs one operation on it, the same one whatever the bucket holds. -/
theorem exec_reads {s : Station} (ha : s.DeadlinesActed) (q : List Instr) {c : Instr} {b : Nat} (h : s.Reads c b) :
    ∃ rest decide, DecidesAlike decide ∧
      exec c ⟨s, q⟩ = .next ⟨({ s with index.queue := rest } : Station).bucketOperation b decide, q⟩ ∧
      exec c ⟨s.emptied b, q⟩ =
        .next ⟨(({ s with index.queue := rest } : Station).emptied b).bucketOperation b decide, q⟩ := by
  have ha' : (s.emptied b).DeadlinesActed := ha
  cases h with
  | ask x k rest ht =>
    exact ⟨rest, _, decideAsk_alike x k, exec_ask_operation ha q ht, exec_ask_operation ha' q (ht.emptied _)⟩
  | commit x k l rest ht =>
    exact ⟨rest, _, decideCommit_alike x k l, exec_commit_operation ha q ht, exec_commit_operation ha' q (ht.emptied _)⟩
  | drop x k rest ht =>
    exact ⟨rest, _, decideDrop_alike x k, exec_drop_operation ha q ht, exec_drop_operation ha' q (ht.emptied _)⟩
  | release x k l rest ht =>
    exact ⟨rest, _, decideRelease_alike x k l, exec_releaseItem_operation ha q ht,
      exec_releaseItem_operation ha' q (ht.emptied _)⟩
  | expiry p c n ht =>
    exact ⟨s.index.queue, _, decideExpiry_alike p c, exec_leaseExpiry_operation ha q ht,
      exec_leaseExpiry_operation ha' q (ht.emptied _)⟩

/-- Settles O39. -/
theorem damagedBucketTakenAsEmptyAndReported : Obligations.DamagedBucketTakenAsEmptyAndReported := by
  intro s ha q c b hr hdam
  obtain ⟨rest, decide, halike, he, he'⟩ := exec_reads ha q hr
  obtain ⟨w, hw, hgot⟩ := Station.bucketOperation_damaged (s := { s with index.queue := rest }) hdam halike
  exact ⟨_, w, he', hw, by rw [he, hgot]⟩

end Sys2Proof.Machine
end

section
namespace Sys2Proof.Machine

/-! ### Pool table and table memory stay in canonical form (R3, R14) -/

theorem Station.TablesCanonical.of_same {s t : Station} (h : s.TablesCanonical)
    (hp : t.control.pools = s.control.pools) (ht : t.index.table = s.index.table) : t.TablesCanonical where
  pools := by rw [hp]; exact h.pools
  table := by rw [ht]; exact h.table

theorem Station.tearInFlight_wf {s : Station} (h : s.index.table.wf) : s.tearInFlight.index.table.wf := by
  unfold Station.tearInFlight
  (repeat' split)
  · exact ShardTable.write_wf h _ _
  · exact ShardTable.write_wf h _ _
  · exact h

theorem Station.decidePoolSet_canonical {s : Station} (h : cellsCanonical (fun _ => (0 : Pool)) s.control.pools)
    (e : CmdEntry) : cellsCanonical (fun _ => (0 : Pool)) (s.decidePoolSet e).control.pools := by
  unfold Station.decidePoolSet
  (repeat' split)
  · exact h
  · exact h
  · exact cellsWrite_canonical h

/-- Only a cold reset and a POOL_SET change the pool table (R3). -/
theorem exec_keeps_pools {c : Instr} (hd : Instr.isDeadlineRow c = false) {s t : State}
    (hs : cellsCanonical (fun _ => (0 : Pool)) s.station.settled.control.pools) (h : exec c s = .next t) :
    cellsCanonical (fun _ => (0 : Pool)) t.station.control.pools := by
  by_cases he : t.station.control.pools = s.station.settled.control.pools
  · rw [he]; exact hs
  · rcases (exec_byRule hd h).pools he with ⟨hc, -⟩ | ⟨hc, -⟩ <;> cases hc <;> cases h
    · exact ⟨.nil, nofun⟩
    · dsimp only
      rcases s.station.settled.takeHead_cases 1 (fun e t => some (t.decidePoolSet e)) with e | ⟨e, rest, -, -, -, hy⟩
      · rw [e]; exact hs
      · rw [← Option.some.inj hy]
        exact Station.decidePoolSet_canonical (s := { s.station.settled with port.fifo := rest }) hs e

/-- Only resets and the ends of bucket writes change table memory (R14). -/
theorem exec_keeps_table {c : Instr} (hd : Instr.isDeadlineRow c = false) {s t : State} (ha : s.station.DeadlinesActed)
    (hs : s.station.index.table.wf) (h : exec c s = .next t) : t.station.index.table.wf := by
  cases hc : Instr.touchesTable c with
  | false => rw [exec_table hd hc ha h]; exact hs
  | true =>
    cases c with
    | coldReset => rw [exec_coldReset_eq ha h]; exact Station.tearInFlight_wf hs
    | warmReset =>
      rcases exec_warmReset_cases ha h with ⟨-, e⟩ | ⟨-, e⟩ <;> rw [e]
      · exact hs
      · exact Station.tearInFlight_wf hs
    | bucketWriteDone =>
      rcases exec_bucketWriteDone_cases ha h with e | ⟨b, k, -, e⟩ <;> rw [e]
      · exact hs
      · exact ShardTable.write_wf hs b k
    | scrubWriteDone =>
      rcases exec_scrubWriteDone_cases ha h with e | ⟨b, -, -, e⟩ <;> rw [e]
      · exact hs
      · obtain ⟨x, hx⟩ := s.station.scrubDone_index b
        rw [hx]
        exact ShardTable.scrubWrite_wf hs b
    | _ => cases hc

theorem tablesCanonical_keptByDeadlines : KeptByDeadlines Station.TablesCanonical := fun s d ds _ h => by
  obtain ⟨⟨_, hc⟩, ⟨_, hi⟩, -⟩ := Station.actDeadline_parts d { s with clock.reached := ds }
  exact h.of_same (by rw [hc]) (by rw [hi])

theorem step_keeps_tablesCanonical {s t : State} (hs : s.station.TablesCanonical) (h : step s = .next t) :
    t.station.TablesCanonical :=
  step_keeps (fun _ h => h) tablesCanonical_keptByDeadlines (fun s _ h => h.of_same (by simp) (by simp))
    (fun _ s _ hd ha hs h => ⟨exec_keeps_pools hd (by rw [s.station.settled_of_acted ha]; exact hs.pools) h,
      exec_keeps_table hd ha hs.table h⟩) hs h

end Sys2Proof.Machine
end

section
namespace Sys2Proof.Machine

/-! ### What work on entries and slots leaves: the tag wait queue and the segment queues (R69, R113) -/

/-- The tag wait queue and the segment queues of the lanes. -/
def Station.queued (s : Station) : List TagRequest × (LaneNo → List Descriptor) :=
  (s.exchange.waitQueue, fun l => (s.laneAt l).segments)

@[simp] theorem Station.bump_queued (c : Counter) (s : Station) : (s.bump c).queued = s.queued := rfl

@[simp] theorem Station.setEntry_queued (i : EntryIndex) (e : Entry) (s : Station) :
    (s.setEntry i e).queued = s.queued := rfl

@[simp] theorem Station.moveSlot_queued (b : Option Binding) (f : Slot → Slot) (s : Station) :
    (s.moveSlot b f).queued = s.queued := by
  unfold Station.moveSlot
  split
  · refine Prod.ext rfl (funext fun l => ?_)
    change ((s.mapLane _ _).laneAt l).segments = _
    rw [Station.laneAt_mapLane]
    split <;> rfl
  · rfl

@[simp] theorem Station.storeUnindexed_queued (r : Reason) (b : Option Binding) (s : Station) :
    (s.storeUnindexed r b).queued = s.queued := by
  simp [Station.storeUnindexed]

@[simp] theorem Station.exhaust_queued (i : EntryIndex) (s : Station) : (s.exhaust i).queued = s.queued := by
  unfold Station.exhaust
  dsimp only
  split <;> simp

@[simp] theorem Station.attemptFailed_queued (i : EntryIndex) (s : Station) : (s.attemptFailed i).queued = s.queued := by
  unfold Station.attemptFailed
  dsimp only
  split <;> simp

@[simp] theorem Station.giveUp_queued (o : ReleasedOutcome) (i : EntryIndex) (s : Station) :
    (s.giveUp o i).queued = s.queued := by
  unfold Station.giveUp
  dsimp only
  split <;> simp

@[simp] theorem Station.takeKnown_queued (i : EntryIndex) (l : Locator) (s : Station) :
    (s.takeKnown i l).queued = s.queued := by
  simp [Station.takeKnown]

@[simp] theorem Station.takeWrite_queued (i : EntryIndex) (s : Station) : (s.takeWrite i).queued = s.queued := by
  simp [Station.takeWrite]

section Answers
variable {i : EntryIndex} {a : AnswerBody} {s t : Station}

theorem Station.answerAsking_queued : s.answerAsking i a = some t → t.queued = s.queued := by
  unfold Station.answerAsking
  rcases a.asVerdict with _ | (_ | _ | _ | _) <;> rintro ⟨⟩ <;> simp

theorem Station.answerHolding_queued : s.answerHolding i a = some t → t.queued = s.queued := by
  unfold Station.answerHolding
  rcases a.asVerdict with _ | (_ | _ | _ | _) <;> rintro ⟨⟩ <;> simp

theorem Station.answerCommitting_queued : s.answerCommitting i a = some t → t.queued = s.queued := by
  unfold Station.answerCommitting
  rcases a with _ | _ | (_ | _ | _) | _ <;> rintro ⟨⟩ <;> simp

theorem Station.answerReleasing_queued : s.answerReleasing i a = some t → t.queued = s.queued := by
  unfold Station.answerReleasing
  rcases a with _ | _ | _ | o
  iterate 3 exact nofun
  cases hk : (s.entry i).kind with
  | askExchange => simp [hk]
  | hostRelease => dsimp only; rw [hk]; rintro ⟨⟩; rfl
  | compensation => dsimp only; rw [hk]; cases o <;> rintro ⟨⟩ <;> rfl

theorem Station.answerAskOrphan_queued {held : Bool} : s.answerAskOrphan i held a = some t → t.queued = s.queued := by
  unfold Station.answerAskOrphan
  rcases a.asVerdict with _ | (_ | _ | _ | _) <;> cases held <;> rintro ⟨⟩ <;> rfl

theorem Station.answerCommitOrphan_queued {aborted : Bool} :
    s.answerCommitOrphan i aborted a = some t → t.queued = s.queued := by
  unfold Station.answerCommitOrphan
  rcases a with _ | _ | (_ | _ | _) | _ <;> rintro ⟨⟩ <;> rfl

theorem Station.answerEntry_queued (h : s.answerEntry i a = some t) : t.queued = s.queued := by
  unfold Station.answerEntry at h
  split at h
  · exact Station.answerAsking_queued h
  · exact Station.answerHolding_queued h
  · exact Station.answerCommitting_queued h
  · exact Station.answerReleasing_queued h
  · exact Station.answerAskOrphan_queued h
  · exact Station.answerAskOrphan_queued h
  · exact Station.answerCommitOrphan_queued h
  · exact Station.answerCommitOrphan_queued h
  all_goals cases h

end Answers

@[simp] theorem Station.takeAnswer_queued (g : Tag) (a : AnswerBody) (s : Station) :
    (s.takeAnswer g a).queued = s.queued := by
  unfold Station.takeAnswer
  split
  · cases h : s.answerEntry (tagIndex g) a with
    | none => simp
    | some t => exact Station.answerEntry_queued h
  · simp

@[simp] theorem Station.sendFailed_queued (k : RequestKind) (i : EntryIndex) (s : Station) :
    (s.sendFailed k i).queued = s.queued := by
  unfold Station.sendFailed
  split <;> simp

@[simp] theorem Station.takeOutcome_queued (k : RequestKind) (g : Tag) (a : Bool) (s : Station) :
    (s.takeOutcome k g a).queued = s.queued := by
  unfold Station.takeOutcome
  dsimp only
  (repeat' split) <;> simp

@[simp] theorem Station.tellOutcome_queued (f : TxFrame) (a : Bool) (s : Station) :
    (s.tellOutcome f a).queued = s.queued := by
  unfold Station.tellOutcome
  cases f.producer with
  | index | roster => rfl
  | exchange => cases f.frame.body.requestKind <;> simp

@[simp] theorem Station.endAttempt_queued (f : TxFrame) (a : Bool) (s : Station) :
    (s.endAttempt f a).queued = s.queued := by
  unfold Station.endAttempt
  (repeat' split)
  · rw [Station.tellOutcome_queued]; rfl
  · rfl
  · rfl
  · rw [Station.tellOutcome_queued]; rfl

/-! Deadlines of entries. -/

@[simp] theorem Station.entryExpired_queued (i : EntryIndex) (s : Station) : (s.entryExpired i).queued = s.queued := by
  unfold Station.entryExpired Station.expireEntry Station.answerExpired Station.holdExpired Station.orphanExpired
  dsimp only
  (repeat' split) <;> simp

/-! The cleanup toward a lost or restarted owner. -/

@[simp] theorem Station.cleanEntry_queued (r : Bool) (p : StationNo) (s : Station) (i : EntryIndex) :
    (s.cleanEntry r p i).queued = s.queued := by
  unfold Station.cleanEntry Station.cleanLost Station.cleanRestarted Station.cleanClosing
  dsimp only
  (repeat' split) <;> simp

@[simp] theorem Station.cleanExchange_queued (r : Bool) (p : StationNo) (s : Station) :
    (s.cleanExchange r p).queued = s.queued := by
  unfold Station.cleanExchange
  generalize List.finRange 256 = is
  induction is generalizing s with
  | nil => rfl
  | cons i is ih => rw [List.foldl_cons, ih, Station.cleanEntry_queued]

@[simp] theorem Station.offerPeerItem_queued (item : WorkItem) (s : Station) :
    (s.offerPeerItem item).queued = s.queued := by
  unfold Station.offerPeerItem
  split <;> rfl

@[simp] theorem Station.purge_queued (p : StationNo) (s : Station) : (s.purge p).queued = s.queued := rfl

@[simp] theorem Station.cleanupPeer_queued (r : Bool) (p : StationNo) (s : Station) :
    (s.cleanupPeer r p).queued = s.queued := by
  simp [Station.cleanupPeer]

/-! Requests handed on, commits and reports. -/

@[simp] theorem Station.deliverSelf_queued (i : EntryIndex) (s : Station) : (s.deliverSelf i).queued = s.queued := by
  unfold Station.deliverSelf
  split <;> rfl

@[simp] theorem Station.deliverBus_queued (i : EntryIndex) (s : Station) : (s.deliverBus i).queued = s.queued := by
  unfold Station.deliverBus
  split <;> rfl

@[simp] theorem Station.recordOffer_queued (p : HandOnPath) (i : EntryIndex) (s : Station) :
    (s.recordOffer p i).queued = s.queued := by
  cases p <;> rfl

@[simp] theorem Station.storedSlot_queued (b : Binding) (u : Option Reason) (l : Locator) (s : Station) :
    (s.storedSlot b u l).queued = s.queued := by
  unfold Station.storedSlot Station.commitBound
  (repeat' split) <;> simp

@[simp] theorem Station.recipeReported_queued (l : LaneNo) (q : Word) (s : Station) :
    (s.recipeReported l q).queued = s.queued := by
  unfold Station.recipeReported
  split <;> rfl

@[simp] theorem Station.tellProducer_queued (p : Producer) (r : Report) (s : Station) :
    (s.tellProducer p r).queued = s.queued := by
  cases p with
  | lane =>
    cases r with
    | recipe => exact Station.recipeReported_queued _ _ _
    | _ => rfl
  | _ => rfl

end Sys2Proof.Machine
end

section
namespace Sys2Proof.Machine

/-! ### The shared operations keep the capacities (R38, R69, R113, R138, R148, R169, R172, R175) -/

/-- Host releases and segment queues within their bounds. -/
def Station.QueuedWithin (s : Station) : Prop :=
  s.exchange.hostReleases ≤ 64 ∧ ∀ l, (s.laneAt l).segments.length ≤ 8

theorem Station.QueuedWithin.of_queued {s t : Station} (h : s.QueuedWithin) (e : t.queued = s.queued) :
    t.QueuedWithin := by
  obtain ⟨hr, hs⟩ := h
  obtain ⟨he, hl⟩ := Prod.ext_iff.1 e
  refine ⟨?_, fun l => ?_⟩
  · change t.exchange.waitQueue.countP _ ≤ 64
    rw [show t.exchange.waitQueue = s.exchange.waitQueue from he]
    exact hr
  · rw [show (t.laneAt l).segments = (s.laneAt l).segments from congrFun hl l]
    exact hs l

@[simp] theorem txInsert_length (f : TxFrame) (q : List TxFrame) : (txInsert f q).length = q.length + 1 := by
  induction q with
  | nil => rfl
  | cons g q ih =>
    rw [txInsert]
    split
    · simp [ih]
    · rfl

theorem txPurge_length_le (p : StationNo) (q : List TxFrame) : (txPurge p q).length ≤ q.length :=
  List.length_filterMap_le _ _

namespace Station.WithinBounds
variable {s t : Station}

theorem queued (h : s.WithinBounds) : s.QueuedWithin := ⟨h.hostReleases, h.segments⟩

/-- The stream port as it was, queues no longer than they were, host releases and segment queues within their bounds. -/
theorem of_queues (h : s.WithinBounds) (hp : t.port = s.port) (hx : t.bus.tx.length ≤ s.bus.tx.length)
    (hi : t.bus.inbound.length ≤ s.bus.inbound.length) (hw : t.index.queue.length ≤ s.index.queue.length)
    (hq : t.QueuedWithin) : t.WithinBounds where
  commands := by rw [hp]; exact h.commands
  reports := by rw [hp]; exact h.reports
  threshold := by rw [hp]; exact h.threshold
  transmit := hx.trans h.transmit
  inbound := hi.trans h.inbound
  work := hw.trans h.work
  hostReleases := hq.1
  segments := hq.2

/-- Everything bounded as it was. -/
theorem of_same (h : s.WithinBounds) (hp : t.port = s.port := by simp) (hx : t.bus.tx = s.bus.tx := by simp)
    (hi : t.bus.inbound = s.bus.inbound := by simp) (hw : t.index.queue = s.index.queue := by simp)
    (hq : t.queued = s.queued := by simp) : t.WithinBounds :=
  h.of_queues hp (hx ▸ Nat.le_refl _) (hi ▸ Nat.le_refl _) (hw ▸ Nat.le_refl _) (h.queued.of_queued hq)

/-- A command that touches none of the five blocks. -/
theorem of_blocks (h : s.WithinBounds) (e : t.port = s.port ∧ t.bus = s.bus ∧ t.index = s.index ∧
    t.exchange = s.exchange ∧ t.lane = s.lane) : t.WithinBounds := by
  obtain ⟨hp, hb, hi, he, hl⟩ := e
  exact h.of_same hp (by rw [hb]) (by rw [hb]) (by rw [hi]) (by simp [Station.queued, Station.laneAt, he, hl])

theorem bump (h : s.WithinBounds) (c : Counter) : (s.bump c).WithinBounds := h.of_same

/-! The transmit queue. -/

theorem txPush (h : s.WithinBounds) (hr : s.txRoom = true) (f : Frame) (w : TxProducer) :
    (s.txPush f w).WithinBounds where
  __ := h
  transmit := by
    have := Station.txRoom_iff.1 hr
    simpa [Station.txPush] using this

theorem beaconFallsDue (h : s.WithinBounds) : s.beaconFallsDue.WithinBounds := by
  unfold Station.beaconFallsDue
  split
  · rename_i hr
    exact (h.txPush (Bool.and_eq_true_iff.1 hr).2 _ _).of_same rfl rfl rfl rfl rfl
  · exact h

theorem purge (h : s.WithinBounds) (p : StationNo) : (s.purge p).WithinBounds :=
  h.of_queues rfl (txPurge_length_le p _) (Nat.le_refl _) (Nat.le_refl _) h.queued

theorem enterRunning (h : s.WithinBounds) (f : Bool) : (s.enterRunning f).WithinBounds := by
  have hd : ({ s with
      control.state := .running
      roster.beaconDeadline := some (s.clock.now + Config.beaconTicks) } : Station).WithinBounds := h.of_same rfl rfl rfl rfl rfl
  exact hd.beaconFallsDue.of_same rfl rfl rfl rfl rfl

theorem removeOnLine (h : s.WithinBounds) : s.removeOnLine.WithinBounds :=
  h.of_queues rfl List.length_eraseP_le (Nat.le_refl _) (Nat.le_refl _) h.queued

theorem retryOnLine (h : s.WithinBounds) : s.retryOnLine.WithinBounds :=
  h.of_queues rfl (List.length_map _).le (Nat.le_refl _) (Nat.le_refl _) h.queued

theorem tellOutcome (h : s.WithinBounds) (f : TxFrame) (a : Bool) : (s.tellOutcome f a).WithinBounds := h.of_same

theorem endAttempt (h : s.WithinBounds) (f : TxFrame) (a : Bool) : (s.endAttempt f a).WithinBounds := by
  unfold Station.endAttempt
  (repeat' split)
  · exact (h.removeOnLine.bump _).tellOutcome _ _
  · exact h.removeOnLine
  · exact h.retryOnLine
  · exact (h.removeOnLine.bump _).tellOutcome _ _

/-! The inbound queue. -/

theorem placeFrame (h : s.WithinBounds) (f : Frame) (d : Bool) : (s.placeFrame f d).WithinBounds := by
  unfold Station.placeFrame
  split
  · rename_i hr
    have hroom : s.bus.inbound.length < 16 := hr
    exact { h with inbound := by simpa using hroom }
  · exact h.bump _

theorem checkFrame (h : s.WithinBounds) (cells : List Bool) : (s.checkFrame cells).WithinBounds := by
  unfold Station.checkFrame
  split
  · exact h.bump _
  split
  · exact h.bump _
  split
  · exact h.of_same rfl rfl rfl rfl rfl
  · rename_i f _ _ _
    have hl : (s.signOfLife f.sender).WithinBounds := h.of_same rfl rfl rfl rfl rfl
    unfold Station.goodFrame
    dsimp only
    (repeat' split)
    · exact hl.placeFrame f _
    · exact hl.placeFrame f _
    · exact hl

theorem tail (h : s.WithinBounds) {f : Frame} {rest : List Frame} (hb : s.bus.inbound = f :: rest) :
    ({ s with bus.inbound := rest } : Station).WithinBounds :=
  h.of_queues rfl (Nat.le_refl _) (by simp [hb]) (Nat.le_refl _) h.queued

theorem takeAnswer (h : s.WithinBounds) (g : Tag) (a : AnswerBody) : (s.takeAnswer g a).WithinBounds := h.of_same

/-! The index work queue. -/

theorem workPush (h : s.WithinBounds) (hr : s.workRoom = true) (item : WorkItem) : (s.workPush item).WithinBounds where
  __ := h
  work := by
    have : s.index.queue.length < 32 := of_decide_eq_true hr
    simpa [Station.workPush] using this

theorem deliverInbound (h : s.WithinBounds) (hr : s.workRoom = true) : s.deliverInbound.WithinBounds := by
  unfold Station.deliverInbound
  split
  · rename_i f rest hb
    split
    · exact ((h.tail hb).of_same rfl rfl rfl rfl rfl : ({ s with bus.inbound := rest, bus.inboundWaits := false } : Station).WithinBounds).workPush
        hr _
    · exact h
  · exact h

theorem deliverSelf (h : s.WithinBounds) (hr : s.workRoom = true) (i : EntryIndex) : (s.deliverSelf i).WithinBounds := by
  unfold Station.deliverSelf
  split
  · exact (h.workPush hr _).of_same rfl rfl rfl rfl rfl
  · exact h

theorem deliverBus (h : s.WithinBounds) (hr : s.txRoom = true) (i : EntryIndex) : (s.deliverBus i).WithinBounds := by
  unfold Station.deliverBus
  split
  · exact (h.txPush hr _ _).of_same rfl rfl rfl rfl rfl
  · exact h

theorem deliverHeld (h : s.WithinBounds) (hr : s.workRoom = true) : s.deliverHeld.WithinBounds := by
  unfold Station.deliverHeld
  split
  · exact (h.of_same rfl rfl rfl rfl rfl : ({ s with roster.held := none } : Station).WithinBounds).workPush hr _
  · exact h

theorem offerPeerItem (h : s.WithinBounds) (item : WorkItem) : (s.offerPeerItem item).WithinBounds := by
  unfold Station.offerPeerItem
  split
  · rename_i hr
    exact h.workPush (Bool.and_eq_true_iff.1 hr).1 item
  · exact h.of_same rfl rfl rfl rfl rfl

theorem admitSource (h : s.WithinBounds) (hr : s.workRoom = true) (x : Source) : (s.admitSource x).WithinBounds := by
  cases x with
  | bus => exact (h.deliverInbound hr).of_same rfl rfl rfl rfl rfl
  | roster => exact (h.deliverHeld hr).of_same rfl rfl rfl rfl rfl
  | exchange =>
    unfold Station.admitSource
    cases s.exchange.offerSelf with
    | none => exact h.of_same rfl rfl rfl rfl rfl
    | some o => exact (h.deliverSelf hr o.index).of_same rfl rfl rfl rfl rfl

theorem dispatchRequest (h : s.WithinBounds) : s.dispatchRequest.WithinBounds := by
  unfold Station.dispatchRequest
  split
  · exact h.of_same rfl rfl rfl rfl rfl
  split
  · exact h
  · exact h.deliverInbound (by simpa using ‹¬(!s.workRoom) = true›)

theorem recordOffer (h : s.WithinBounds) (p : HandOnPath) (i : EntryIndex) : (s.recordOffer p i).WithinBounds := h.of_same

theorem handOnSelf (h : s.WithinBounds) (i : EntryIndex) : (s.handOnSelf i).WithinBounds := by
  unfold Station.handOnSelf
  split
  · exact h.recordOffer _ i
  split
  · exact h
  · exact h.deliverSelf (by simpa using ‹¬(!s.workRoom) = true›) i

theorem handOnBus (h : s.WithinBounds) (i : EntryIndex) : (s.handOnBus i).WithinBounds := by
  unfold Station.handOnBus
  split
  · exact h.recordOffer _ i
  split
  · exact h.deliverBus (by simpa using ‹¬(!s.txRoom) = true›) i
  · exact h

theorem handOnAnswer (h : s.WithinBounds) (a : Answer) (rest : List Answer) : (s.handOnAnswer a rest).WithinBounds := by
  unfold Station.handOnAnswer
  split
  · exact (h.of_same rfl rfl rfl rfl rfl : ({ s with index.answers := rest } : Station).WithinBounds).takeAnswer _ _
  split
  · exact h.of_same rfl rfl rfl rfl rfl
  split
  · exact (h.txPush (by simpa using ‹¬(!s.txRoom) = true›) _ _).of_same rfl rfl rfl rfl rfl
  · exact h

/-! The roster. -/

theorem cleanupPeer (h : s.WithinBounds) (r : Bool) (p : StationNo) : (s.cleanupPeer r p).WithinBounds := by
  have hc : (s.cleanExchange r p).WithinBounds := h.of_same
  exact (hc.purge p).offerPeerItem _

theorem reportPeer (h : s.WithinBounds) (v : PeerEvent) (p : StationNo) : (s.reportPeer v p).WithinBounds :=
  h.of_same rfl rfl rfl rfl rfl

theorem silencePeer (h : s.WithinBounds) (p : StationNo) : (s.silencePeer p).WithinBounds := by
  unfold Station.silencePeer
  refine reportPeer (cleanupPeer ?_ false p) _ p
  exact h.of_same rfl rfl rfl rfl rfl

theorem decideBeacon (h : s.WithinBounds) (p : StationNo) (f : Bool) (z : BitVec 4) :
    (s.decideBeacon p f z).WithinBounds := by
  unfold Station.decideBeacon
  dsimp only
  (repeat' split)
  · exact h.of_same rfl rfl rfl rfl rfl
  · exact h
  · exact h.of_same rfl rfl rfl rfl rfl
  · exact (h.cleanupPeer true p).reportPeer _ p
  · exact h

theorem takeBeacon (h : s.WithinBounds) : s.takeBeacon.WithinBounds := by
  unfold Station.takeBeacon
  (repeat' split)
  · exact (h.tail ‹_›).decideBeacon _ _ _
  all_goals exact h

end Station.WithinBounds
end Sys2Proof.Machine
end

section
namespace Sys2Proof.Machine

/-! ### Steps that touch the tag wait queue or the segment queues (R69, R113) -/

theorem Lane.dutySegment_segments_le {n : LaneNo} {l : Lane} {d : Report × Lane} (h : l.dutySegment n = some d) :
    d.2.segments.length ≤ l.segments.length := by
  unfold Lane.dutySegment at h
  split at h
  · rename_i hs
    split at h <;> cases h
    simp [hs]
  · cases h

/-- A report of the lane unit takes at most the head descriptor (R124, R125). -/
theorem Lane.duty_segments_le {n : LaneNo} {l : Lane} {d : Report × Lane} (h : l.duty n = some d) :
    d.2.segments.length ≤ l.segments.length := by
  unfold Lane.duty at h
  split at h
  · rename_i ha
    cases h
    unfold Lane.dutyAbort at ha
    split at ha <;> cases ha
    exact Nat.le_refl _
  split at h
  · cases h
  simp only [Option.or_eq_some_iff] at h
  obtain ho | ⟨-, hs | ⟨-, ho | ⟨-, ho | ⟨-, ho⟩⟩⟩⟩ := h
  case' inr.inl => exact Lane.dutySegment_segments_le hs
  all_goals
    simp only [Lane.dutyOpened, Lane.dutyStore, Lane.dutyRecipe, Lane.dutyDrained] at ho
    (repeat' split at ho) <;> cases ho <;> exact Nat.le_refl _

theorem Lane.consumeBytes_segments_length (q : Word) (k : Nat) (l : Lane) :
    (l.consumeBytes q k).segments.length = l.segments.length := List.length_map _

@[simp] theorem Lane.ensureFilling_segments (l : Lane) : l.ensureFilling.segments = l.segments := by
  unfold Lane.ensureFilling
  split <;> rfl

namespace Station.QueuedWithin
variable {s t : Station}

theorem mapLane (h : s.QueuedWithin) {l : LaneNo} {f : Lane → Lane}
    (hf : (s.laneAt l).segments.length ≤ 8 → (f (s.laneAt l)).segments.length ≤ 8) : (s.mapLane l f).QueuedWithin := by
  refine ⟨h.1, fun k => ?_⟩
  rw [Station.laneAt_mapLane]
  split
  · subst k; exact hf (h.2 l)
  · exact h.2 k

theorem cutLane (h : s.QueuedWithin) (l : LaneNo) : (s.cutLane l).QueuedWithin := by
  unfold Station.cutLane
  split
  · exact (h.mapLane (f := Lane.cutSlot) id).of_queued rfl
  · exact h

theorem finalCut (h : s.QueuedWithin) (l : LaneNo) : (s.finalCut l).QueuedWithin := by
  unfold Station.finalCut
  split
  · exact h.cutLane l
  · exact h

theorem consumeBurst (h : s.QueuedWithin) (b : Burst) (bytes : List Byte) : (s.consumeBurst b bytes).QueuedWithin := by
  have consumed : ∀ k, (s.mapLane b.lane fun l =>
      if bytes.isEmpty then l else l.ensureFilling.consumeBytes b.segment k).QueuedWithin := fun k => h.mapLane fun hl => by
    split
    · exact hl
    · rwa [Lane.consumeBytes_segments_length, Lane.ensureFilling_segments]
  unfold Station.consumeBurst
  dsimp only
  split
  · refine cutLane ?_ _
    exact (consumed _).of_queued rfl
  · exact (consumed _).of_queued rfl

theorem abortLane (h : s.QueuedWithin) (l : LaneNo) (r : AbortReason) : (s.abortLane l r).QueuedWithin := by
  have key : ∀ (qs : List Word) (u : Station), (qs.foldl (Station.abortSlot l) u).queued = u.queued := fun qs => by
    induction qs with
    | nil => exact fun _ => rfl
    | cons q qs ih =>
      intro u
      rw [List.foldl_cons, ih]
      unfold Station.abortSlot
      split <;> rfl
  have hf : ({ s with exchange.waitQueue := s.exchange.waitQueue.filter fun r => !r.ofLane l } : Station).QueuedWithin :=
    ⟨((List.filter_sublist).countP_le).trans h.1, h.2⟩
  have hx : (s.abortExchange l).QueuedWithin := hf.of_queued (key _ _)
  unfold Station.abortLane
  refine mapLane ?_ fun _ => Nat.zero_le 8
  exact hx.of_queued rfl

theorem grant (h : s.QueuedWithin) (r : TagRequest) (i : EntryIndex) : (s.grant r i).QueuedWithin := by
  refine h.of_queued ?_
  unfold Station.grant
  (repeat' split) <;> simp

theorem lookupCheck (h : s.QueuedWithin) (l : LaneNo) (q : Word) (k : Key) : (s.lookupCheck l q k).QueuedWithin := by
  unfold Station.lookupCheck
  dsimp only
  split
  · exact h.of_queued (by simp)
  split
  · obtain ⟨hr, hs⟩ := h.of_queued (Station.moveSlot_queued (some ⟨l, q⟩) (Slot.enter .lookup) s)
    refine ⟨?_, hs⟩
    unfold Exchange.hostReleases at hr ⊢
    rw [List.countP_append]
    exact hr
  · exact h.of_queued (by simp)

theorem reset (hx : t.exchange = Exchange.reset) (hl : t.lane = LaneUnit.reset) : t.QueuedWithin := by
  refine ⟨by rw [hx]; exact Nat.zero_le 64, fun l => ?_⟩
  have : t.laneAt l = {} := by
    unfold Station.laneAt
    rw [hl]
    exact Vector.getElem_replicate l.isLt
  rw [this]
  exact Nat.zero_le 8

end Station.QueuedWithin

namespace Station.WithinBounds
variable {s t : Station}

/-- The other blocks as they were. -/
theorem of_lanes (h : s.WithinBounds) (hq : t.QueuedWithin) (hp : t.port = s.port := by simp)
    (hb : t.bus = s.bus := by simp) (hi : t.index = s.index := by simp) : t.WithinBounds :=
  h.of_queues hp (hb ▸ Nat.le_refl _) (hb ▸ Nat.le_refl _) (hi ▸ Nat.le_refl _) hq

theorem setUpLane (h : s.WithinBounds) {l : LaneNo} {r : ParkedRecord} (ht : s.setUpLane l r = .ok t) :
    t.WithinBounds := by
  unfold Station.setUpLane at ht
  split at ht <;> cases ht
  refine h.of_lanes ?_
  exact (h.queued.mapLane (f := fun _ => openedLane r (s.poolOf r.branch)) fun _ => Nat.zero_le 8).of_queued rfl

theorem decideSegment (h : s.WithinBounds) {e : CmdEntry} (ht : s.decideSegment e = .ok t) : t.WithinBounds := by
  unfold Station.decideSegment at ht
  dsimp only at ht
  (repeat' split at ht) <;> cases ht
  rename_i hroom
  have hlt : (s.laneAt e.lane).segments.length < 8 := Nat.lt_of_not_le hroom
  refine h.of_lanes (h.queued.mapLane fun _ => ?_)
  simpa [Lane.pushSegment] using hlt

theorem decideStored (h : s.WithinBounds) {e : CmdEntry} (ht : s.decideStored e = .ok t) : t.WithinBounds := by
  unfold Station.decideStored at ht
  dsimp only at ht
  (repeat' split at ht) <;> cases ht
  exact h.of_same

theorem abortLane (h : s.WithinBounds) (l : LaneNo) (r : AbortReason) : (s.abortLane l r).WithinBounds :=
  h.of_lanes (h.queued.abortLane l r)

theorem decideStoreFailed (h : s.WithinBounds) {e : CmdEntry} (ht : s.decideStoreFailed e = .ok t) :
    t.WithinBounds := by
  unfold Station.decideStoreFailed at ht
  dsimp only at ht
  (repeat' split at ht) <;> cases ht
  exact h.abortLane _ _

theorem decideAbort (h : s.WithinBounds) {e : CmdEntry} (ht : s.decideAbort e = .ok t) : t.WithinBounds := by
  unfold Station.decideAbort at ht
  split at ht <;> cases ht
  exact h.abortLane _ _

theorem endLane (h : s.WithinBounds) {x : LaneState} {l : LaneNo} (ht : s.endLane x l = .ok t) : t.WithinBounds := by
  unfold Station.endLane at ht
  split at ht <;> cases ht
  exact h.of_lanes ((h.queued.mapLane (f := fun y => { y with state := x }) id).finalCut l)

theorem makeLaneReport (h : s.WithinBounds) (l : LaneNo) : (s.makeLaneReport l).WithinBounds := by
  refine h.of_lanes ?_
  unfold Station.makeLaneReport
  split
  · rename_i d hd
    exact (h.queued.mapLane (f := fun _ => d.2) (Lane.duty_segments_le hd).trans).of_queued rfl
  · exact h.queued

theorem completeBurst (h : s.WithinBounds) (b : Burst) (f : Fetch) : (s.completeBurst b f).WithinBounds := by
  have ht : ({ s with chunker.burst := none, fetch.burst := none } : Station).QueuedWithin := h.queued.of_queued rfl
  refine h.of_lanes ?_
  unfold Station.completeBurst
  dsimp only
  split
  · exact ht
  split
  · exact (ht.consumeBurst b _).finalCut _
  · exact ht.abortLane _ _

theorem digestDone (h : s.WithinBounds) (d : DigestEntry) : (s.digestDone d).WithinBounds := by
  refine h.of_lanes ?_
  unfold Station.digestDone
  exact Station.QueuedWithin.lookupCheck (h.queued.of_queued (by simp)) _ _ _

theorem grant (h : s.WithinBounds) (r : TagRequest) (i : EntryIndex) : (s.grant r i).WithinBounds :=
  h.of_lanes (h.queued.grant r i)

theorem granted (h : s.WithinBounds) {r : TagRequest} {rest : List TagRequest} (hw : s.exchange.waitQueue = r :: rest) :
    ({ s with exchange.waitQueue := rest } : Station).WithinBounds := by
  refine h.of_lanes ⟨?_, h.segments⟩ rfl rfl rfl
  have hr := h.hostReleases
  unfold Exchange.hostReleases at hr ⊢
  rw [hw] at hr
  exact ((List.sublist_cons_self r rest).countP_le).trans hr

theorem decideRelease (h : s.WithinBounds) {e : CmdEntry} (ht : s.decideRelease e = some t) : t.WithinBounds := by
  have refused : ∀ error, (s.refuse e 0 error).WithinBounds := fun _ => { h with }
  unfold Station.decideRelease at ht
  dsimp only at ht
  split at ht
  · cases ht; exact refused _
  split at ht
  · cases ht; exact refused _
  split at ht
  · split at ht <;> cases ht
    exact h.of_same rfl rfl rfl rfl rfl
  split at ht
  · cases ht; exact refused _
  · rename_i hroom
    cases ht
    have hlt : s.exchange.hostReleases < 64 := Nat.lt_of_not_le hroom
    refine h.of_lanes ⟨?_, h.segments⟩ rfl rfl rfl
    unfold Exchange.hostReleases at hlt ⊢
    simpa [List.countP_append, TagRequest.isHostRelease] using hlt

/-! The stream port. -/

theorem refuse (h : s.WithinBounds) (e : CmdEntry) (l : LaneNo) (x : CmdErrorCode) : (s.refuse e l x).WithinBounds :=
  { h with }

theorem popped (h : s.WithinBounds) {e : CmdEntry} {rest : List CmdEntry} (hf : s.port.fifo = e :: rest) :
    ({ s with port.fifo := rest } : Station).WithinBounds := by
  have hc := h.commands
  rw [hf] at hc
  exact { h with commands := (Nat.le_succ _).trans hc }

theorem takeHead (h : s.WithinBounds) {n : Nat} {decide : CmdEntry → Station → Option Station}
    (hd : ∀ e x y, x.WithinBounds → decide e x = some y → y.WithinBounds) : (s.takeHead n decide).WithinBounds := by
  rcases s.takeHead_cases n decide with e | ⟨e, rest, hf, -, -, hy⟩
  · rw [e]; exact h
  · exact hd e _ _ (h.popped hf) hy

theorem takeLaneCommand (h : s.WithinBounds) {n : Nat} {decide : CmdEntry → Station → Except CmdErrorCode Station}
    (hd : ∀ e x y, x.WithinBounds → decide e x = .ok y → y.WithinBounds) : (s.takeLaneCommand n decide).WithinBounds := by
  rcases s.takeLaneCommand_cases n decide with e | ⟨e, rest, hf, -, -, ⟨-, hy⟩ | ⟨-, x, -, hy⟩ | ⟨-, hy⟩⟩
  · rw [e]; exact h
  · rw [hy]; exact (h.popped hf).refuse _ _ _
  · rw [hy]; exact (h.popped hf).refuse _ _ _
  · exact hd e _ _ (h.popped hf) hy

theorem pushHeader (h : s.WithinBounds) (header : Word) :
    ({ s with port := s.port.pushHeader header } : Station).WithinBounds := by
  unfold Port.pushHeader
  split
  · rename_i hroom
    have hlt : s.port.fifo.length < 32 := hroom
    exact { h with commands := by simpa using hlt }
  · exact { h with }

theorem decideConfigure (h : s.WithinBounds) (e : CmdEntry) : (s.decideConfigure e).WithinBounds := by
  unfold Station.decideConfigure
  split
  · exact h.refuse _ _ _
  split
  · exact { h with threshold := ‹_› }
  · exact h.refuse _ _ _

theorem decidePoolSet (h : s.WithinBounds) (e : CmdEntry) : (s.decidePoolSet e).WithinBounds := by
  unfold Station.decidePoolSet
  (repeat' split)
  · exact h.refuse _ _ _
  · exact h.refuse _ _ _
  · exact h.of_same rfl rfl rfl rfl rfl

theorem decideStats (h : s.WithinBounds) (ht : s.decideStats = some t) : t.WithinBounds := by
  unfold Station.decideStats at ht
  split at ht <;> cases ht
  exact h.of_same rfl rfl rfl rfl rfl

theorem decideStart (h : s.WithinBounds) {e : CmdEntry} (ht : s.decideStart e = some t) : t.WithinBounds := by
  unfold Station.decideStart at ht
  split at ht
  · cases ht; exact h.refuse _ _ _
  split at ht
  · cases ht
  split at ht
  · cases ht
    unfold Station.startTaken
    dsimp only
    split
    · exact h.of_same rfl rfl rfl rfl rfl
    · refine enterRunning ?_ false
      exact h.of_same rfl rfl rfl rfl rfl
  · cases ht; exact h.of_same rfl rfl rfl rfl rfl

theorem recipeReported (h : s.WithinBounds) (l : LaneNo) (q : Word) : (s.recipeReported l q).WithinBounds := h.of_same

theorem tellProducer (h : s.WithinBounds) (p : Producer) (r : Report) : (s.tellProducer p r).WithinBounds := by
  cases p with
  | command => exact { h with }
  | lane =>
    cases r with
    | recipe =>
      refine recipeReported (s := { s with lane.ready := none }) ?_ _ _
      exact h.of_same rfl rfl rfl rfl rfl
    | _ => exact h.of_same rfl rfl rfl rfl rfl
  | _ => exact h.of_same rfl rfl rfl rfl rfl

theorem appendReport (h : s.WithinBounds) (p : Producer) (r : Report) : (s.appendReport p r).WithinBounds := by
  unfold Station.appendReport
  split
  · rename_i hroom
    refine tellProducer ?_ p r
    have hr : s.port.reports.length ≤ 1024 := h.reports
    have hlen : r.words.length ≤ 1024 - s.port.reports.length := hroom
    exact { h with
      reports := by
        change (s.port.reports ++ r.words).length ≤ 1024
        rw [List.length_append]
        omega }
  · exact { h with }

/-! The index unit. -/

theorem takeItem (h : s.WithinBounds) {α : Type} {select : WorkItem → Option α} {act : α → Station → Station}
    (ha : ∀ x (u : Station), u.WithinBounds → (act x u).WithinBounds) : (s.takeItem select act).WithinBounds := by
  rcases s.takeItem_cases select act with e | ⟨item, rest, x, hq, -, -, e⟩ <;> rw [e]
  · exact h
  · exact ha x _ (h.of_queues rfl (Nat.le_refl _) (Nat.le_refl _) (by simp [hq]) h.queued)

/-- A bucket operation whose decision touches claims, release records and counters only. -/
theorem bucketOperation (h : s.WithinBounds) (b : Nat) {decide : BucketRead → Decision}
    (hi : ∀ r : BucketRead, r.station.index.ClaimsOrRecords (decide r).station.index)
    (hb : ∀ r : BucketRead, (decide r).station.port = r.station.port ∧ (decide r).station.fetch = r.station.fetch ∧
      (decide r).station.lane = r.station.lane ∧ (decide r).station.chunker = r.station.chunker ∧
      (decide r).station.exchange = r.station.exchange ∧ (decide r).station.bus = r.station.bus ∧
      (decide r).station.roster = r.station.roster ∧ (decide r).station.clock = r.station.clock ∧
      (decide r).station.torn = r.station.torn) : (s.bucketOperation b decide).WithinBounds := by
  obtain ⟨hp, -, hl, -, hx, hbus, -⟩ := bucketOperation_blocks b decide s hb
  obtain ⟨x, hr⟩ := s.openBucket_index b
  obtain ⟨v, w, hd⟩ := hi (s.openBucket b)
  have hq : (s.bucketOperation b decide).index.queue = s.index.queue := by
    change (decide (s.openBucket b)).station.index.queue = _
    rw [hd, hr]
  exact h.of_same hp (by rw [hbus]) (by rw [hbus]) hq (by simp [Station.queued, Station.laneAt, hx, hl])

theorem clearPeer (h : s.WithinBounds) (p : StationNo) : (s.clearPeer p).WithinBounds := by
  obtain ⟨v, a, hv⟩ := s.clearPeer_index p
  exact h.of_same (by simp) (by simp) (by simp) (by rw [hv]) (by simp [Station.queued, Station.laneAt])

theorem scrubDone (h : s.WithinBounds) (b : Nat) : (s.scrubDone b).WithinBounds := by
  unfold Station.scrubDone
  dsimp only
  split
  · exact h.of_same rfl rfl rfl rfl rfl
  · refine enterRunning ?_ true
    exact h.of_same rfl rfl rfl rfl rfl

theorem reset (hp : t.port = Port.reset) (hb : t.bus = Bus.reset) (hi : t.index.queue = [])
    (hx : t.exchange = Exchange.reset) (hl : t.lane = LaneUnit.reset) : t.WithinBounds where
  commands := by rw [hp]; exact Nat.zero_le 32
  reports := by rw [hp]; exact Nat.zero_le 1024
  threshold := by rw [hp]; decide
  transmit := by rw [hb]; exact Nat.zero_le 48
  inbound := by rw [hb]; exact Nat.zero_le 16
  work := by rw [hi]; exact Nat.zero_le 32
  hostReleases := (Station.QueuedWithin.reset hx hl).1
  segments := (Station.QueuedWithin.reset hx hl).2

/-! Deadlines acted on. -/

theorem markDue (h : s.WithinBounds) (p : ClaimPos) : (s.markDue p).WithinBounds := by
  unfold Station.markDue
  (repeat' split)
  · exact h.of_same rfl rfl rfl rfl rfl
  all_goals exact h

theorem markSilence (h : s.WithinBounds) (p : StationNo) : (s.markSilence p).WithinBounds := by
  unfold Station.markSilence
  split
  · exact h.of_same rfl rfl rfl rfl rfl
  · exact h

theorem beaconExpired (h : s.WithinBounds) : s.beaconExpired.WithinBounds := by
  unfold Station.beaconExpired
  split
  · split
    · refine beaconFallsDue ?_
      exact h.of_same rfl rfl rfl rfl rfl
    · exact h
  · exact h

theorem actDeadline (h : s.WithinBounds) (d : Deadline) : (s.actDeadline d).WithinBounds := by
  cases d with
  | claim p => exact h.markDue p
  | entry i => exact (h.of_same : (s.entryExpired i).WithinBounds)
  | peer p => exact h.markSilence p
  | beacon => exact h.beaconExpired

end Station.WithinBounds
end Sys2Proof.Machine
end

section
namespace Sys2Proof.Machine

/-! ### Every step keeps the capacities -/

theorem exec_keeps_withinBounds {c : Instr} {s t : State} (hd : Instr.isDeadlineRow c = false)
    (ha : s.station.DeadlinesActed) (hs : s.station.WithinBounds) (h : exec c s = .next t) : t.station.WithinBounds := by
  rw [← Station.settled_of_acted ha] at hs
  cases c with
  | coldReset => cases h; exact .reset rfl rfl rfl rfl rfl
  | warmReset =>
    cases h
    dsimp only
    split
    · exact hs.of_same rfl rfl rfl rfl rfl
    · exact .reset rfl rfl rfl rfl rfl
  | coldRelease => exact hs.of_blocks (by simp [execColdRelease_frame h])
  | warmRelease => exact hs.of_blocks (by simp [execWarmRelease_frame h])
  | leaseTick => exact hs.of_blocks (by simp [execLeaseTick_frame h])
  | burstIssue => exact hs.of_blocks (by simp [execBurstIssue_frame h])
  | fetchReadCompletion => exact hs.of_blocks (by simp [execFetchReadCompletion_frame h])
  | fetchTimeout => exact hs.of_blocks (by simp [execFetchTimeout_frame h])
  | digestStart => exact hs.of_blocks (by simp [execDigestStart_frame h])
  | frameAbandoned => exact hs.of_blocks (by simp [execFrameAbandoned_frame h])
  | peerJoin => exact hs.of_blocks (by simp [execPeerJoin_frame h])
  | conflictReport => exact hs.of_blocks (by simp [execConflictReport_frame h])
  | stagingWrite | statusWordRead => cases h; dsimp only; split <;> exact { hs with }
  | reportWordRead =>
    cases h
    dsimp only
    split
    · exact { hs with }
    · exact { hs with reports := (List.length_tail.trans_le (Nat.sub_le _ 1)).trans hs.reports }
  | commandWordWrite =>
    cases h
    dsimp only
    split
    · exact hs
    · exact hs.pushHeader _
  | unknownCommand =>
    cases h
    dsimp only
    split
    · split
      · exact (hs.popped ‹_›).refuse _ _ _
      · exact hs
    · exact hs
  | poolSet => cases h; exact hs.takeHead fun e _ _ hx hy => Option.some.inj hy ▸ hx.decidePoolSet e
  | configure => cases h; exact hs.takeHead fun e _ _ hx hy => Option.some.inj hy ▸ hx.decideConfigure e
  | start => cases h; exact hs.takeHead fun _ _ _ hx hy => hx.decideStart hy
  | stats => cases h; exact hs.takeHead fun _ _ _ hx hy => hx.decideStats hy
  | release => cases h; exact hs.takeHead fun _ _ _ hx hy => hx.decideRelease hy
  | openLane | resume => cases h; exact hs.takeLaneCommand fun _ _ _ hx hy => hx.setUpLane hy
  | segment => cases h; exact hs.takeLaneCommand fun _ _ _ hx hy => hx.decideSegment hy
  | stored => cases h; exact hs.takeLaneCommand fun _ _ _ hx hy => hx.decideStored hy
  | storeFailed => cases h; exact hs.takeLaneCommand fun _ _ _ hx hy => hx.decideStoreFailed hy
  | close | suspend => cases h; exact hs.takeLaneCommand fun _ _ _ hx hy => hx.endLane hy
  | abort => cases h; exact hs.takeLaneCommand fun _ _ _ hx hy => hx.decideAbort hy
  | ask => cases h; exact hs.takeItem fun _ u hu => hu.bucketOperation _ (decideAsk_index _ _) (decideAsk_blocks _ _)
  | commit =>
    cases h; exact hs.takeItem fun _ u hu => hu.bucketOperation _ (decideCommit_index _ _ _) (decideCommit_blocks _ _ _)
  | drop => cases h; exact hs.takeItem fun _ u hu => hu.bucketOperation _ (decideDrop_index _ _) (decideDrop_blocks _ _)
  | releaseItem =>
    cases h; exact hs.takeItem fun _ u hu => hu.bucketOperation _ (decideRelease_index _ _ _) (decideRelease_blocks _ _ _)
  | peerLost | peerRestarted => cases h; exact hs.takeItem fun x u hu => hu.clearPeer x
  | leaseExpiry =>
    cases h
    dsimp only
    (repeat' split)
    · exact hs.bucketOperation _ (decideExpiry_index _ _) (decideExpiry_blocks _ _)
    all_goals exact hs
  | bucketWriteDone =>
    cases h
    dsimp only
    split
    · exact hs.of_same rfl rfl rfl rfl rfl
    · exact hs
  | scrubWriteDone =>
    cases h
    dsimp only
    (repeat' split)
    · exact hs.scrubDone _
    all_goals exact hs
  | answerHandOn =>
    cases h
    dsimp only
    (repeat' split)
    · exact hs.handOnAnswer _ _
    all_goals exact hs
  | workQueueAdmit =>
    cases h
    dsimp only
    (repeat' split)
    · exact hs.admitSource ‹_› _
    all_goals exact hs
  | burstCompletion =>
    cases h
    dsimp only
    (repeat' split)
    · exact hs.completeBurst _ _
    all_goals exact hs
  | digestCompletion =>
    cases h
    dsimp only
    (repeat' split)
    · exact hs.of_same rfl rfl rfl rfl rfl
    · refine Station.WithinBounds.digestDone ?_ _
      exact hs.of_same rfl rfl rfl rfl rfl
    · exact hs
  | tagGrant =>
    cases h
    dsimp only
    split
    · exact (hs.granted ‹_›).grant _ _
    · exact hs
  | requestHandOn path =>
    cases h
    dsimp only
    split
    · cases path with
      | self => exact hs.handOnSelf _
      | bus => exact hs.handOnBus _
    · exact hs
  | exchangeReportReady =>
    cases h
    dsimp only
    (repeat' split)
    · exact hs
    · exact hs.of_same rfl rfl rfl rfl rfl
    · exact hs
  | laneReportReady =>
    cases h
    dsimp only
    (repeat' split)
    · exact hs
    · exact hs.makeLaneReport _
    · exact hs
  | reportAppend =>
    cases h
    dsimp only
    (repeat' split)
    · exact hs.appendReport _ _
    all_goals exact hs
  | contention =>
    cases h
    dsimp only
    split
    · rename_i f fs hq
      split
      · split
        · refine hs.of_queues rfl ?_ (Nat.le_refl _) (Nat.le_refl _) hs.queued
          rw [hq]
          exact Nat.le_refl _
        · exact hs.of_same rfl rfl rfl rfl rfl
      · exact hs
    · exact hs
  | attemptEnd =>
    cases h
    dsimp only
    (repeat' split)
    · refine Station.WithinBounds.endAttempt ?_ _ _
      exact hs.of_same rfl rfl rfl rfl rfl
    · refine Station.WithinBounds.endAttempt ?_ _ _
      exact hs.of_same rfl rfl rfl rfl rfl
    · exact hs
  | yieldClear => cases h; dsimp only; split <;> exact hs.of_same rfl rfl rfl rfl rfl
  | frameReceived =>
    cases h
    dsimp only
    split
    · refine Station.WithinBounds.checkFrame ?_ _
      exact hs.of_same rfl rfl rfl rfl rfl
    · exact hs
  | inboundDispatch =>
    cases h
    dsimp only
    (repeat' split)
    · exact (hs.tail ‹_›).takeAnswer _ _
    · exact hs.takeBeacon
    iterate 4 exact hs.dispatchRequest
    exact hs
  | peerSilent =>
    cases h
    dsimp only
    (repeat' split)
    · exact hs
    · refine Station.WithinBounds.silencePeer ?_ _
      exact hs.of_same rfl rfl rfl rfl rfl
    · exact hs
  | beaconTaken => cases h; exact hs.takeBeacon
  | leaseDeadline | answerDeadline | holdDeadline | orphanHoldDeadline | silenceDeadline | beaconDue => cases hd

theorem withinBounds_keptByDeadlines : KeptByDeadlines Station.WithinBounds := fun s d ds _ h =>
  Station.WithinBounds.actDeadline (s := { s with clock.reached := ds }) (h.of_same rfl rfl rfl rfl rfl) d

theorem step_keeps_withinBounds {s t : State} (hs : s.station.WithinBounds) (h : step s = .next t) :
    t.station.WithinBounds :=
  step_keeps (fun _ h => h) withinBounds_keptByDeadlines (fun _ _ h => h.of_blocks (by simp))
    (fun _ _ _ hd ha hs h => exec_keeps_withinBounds hd ha hs h) hs h

/-- Settles O4. -/
theorem queuesAndTablesStayInBounds : Obligations.QueuesAndTablesStayInBounds := fun _ _ h =>
  ⟨fun hs => step_keeps_withinBounds hs h, fun hs => step_keeps_tablesCanonical hs h⟩

end Sys2Proof.Machine
end

section
namespace Sys2Proof.Machine

/-! ### ASK (R45 to R47) -/

/-- An ASK taken off the queue is decided on its key's bucket. -/
theorem exec_ask_eq {s : Station} (ha : s.DeadlinesActed) (q : List Instr) {x : Pair} {k : Key} {rest : List WorkItem}
    {ps : Vector Place 8} (ht : s.TakesItem (.ask x k) rest) (ho : s.Opens (bucketIndex k) ps) :
    exec .ask ⟨s, q⟩ =
      let d := decideAsk x k ⟨ps, false, { s with index.queue := rest }⟩
      .next ⟨{ d.station with
        index.write := if d.changed then writeOf (bucketIndex k) d.places else none
        index.answers := d.answers }, q⟩ := by
  rw [exec_ask_operation ha q ht, Station.bucketOperation_of_opens (s := { s with index.queue := rest }) ho]

section DecideAsk
variable {x : Pair} {k : Key} {r : BucketRead}

theorem decideAsk_isolated (h : k.pool = 15) :
    decideAsk x k r = ⟨r.places, false, [⟨x, .verdict (.noindex .poolIsolated)⟩], r.station⟩ := if_pos h

theorem decideAsk_held {i : Fin 8} (h : k.pool ≠ 15) (hi : HeldAt k r.places i) :
    decideAsk x k r = ⟨(raiseCount i r.places).2, (raiseCount i r.places).1, [⟨x, .verdict (.known r.places[i].locator)⟩],
      r.station.bump .knownVerdicts⟩ := by
  rw [decideAsk, if_neg h, findPlace_eq_some_iff.2 hi]

theorem decideAsk_claimed {p : ClaimPos} {c : Claim} (h : k.pool ≠ 15) (hn : NotCommitted k r.places)
    (hc : r.station.ClaimedAt k p c) : decideAsk x k r =
      ⟨r.places, false, [⟨x, .verdict (r.station.askClaimed x p c).1⟩], (r.station.askClaimed x p c).2⟩ := by
  rw [decideAsk, if_neg h, findPlace_eq_none_iff.2 hn, Station.claimOf_of_claimedAt hc]
  dsimp only
  rw [hc.1]

theorem decideAsk_absent {v : Verdict} {t : Station} (h : k.pool ≠ 15) (hn : NotCommitted k r.places)
    (hc : r.station.NotClaimed k) (ht : r.station.askAbsent x k r.places = (v, t)) :
    decideAsk x k r = ⟨r.places, false, [⟨x, .verdict v⟩], t⟩ := by
  rw [decideAsk, if_neg h, findPlace_eq_none_iff.2 hn, Station.claimOf_eq_none_iff.2 hc, ht]

end DecideAsk

section Claimed
variable {s : Station} {x : Pair} {p : ClaimPos} {c : Claim}

theorem Station.askClaimed_writer (h : x = c.writer) : s.askClaimed x p c = (.write, s.bump .writeVerdicts) := if_pos h

theorem Station.askClaimed_waiter (h : x ≠ c.writer) (hw : x ∈ c.waiters) : s.askClaimed x p c = (.hold, s) := by
  rw [Station.askClaimed, if_neg h, if_pos hw]

theorem Station.askClaimed_joins (h : x ≠ c.writer) (hw : x ∉ c.waiters) (hr : c.waiters.length < 6) :
    s.askClaimed x p c = (.hold, s.setClaim p (some { c with waiters := c.waiters ++ [x] })) := by
  rw [Station.askClaimed, if_neg h, if_neg hw]
  exact if_pos hr

theorem Station.askClaimed_full (h : x ≠ c.writer) (hw : x ∉ c.waiters) (hr : 6 ≤ c.waiters.length) :
    s.askClaimed x p c = (.noindex .waitersFull, s) := by
  rw [Station.askClaimed, if_neg h, if_neg hw]
  exact if_neg (Nat.not_lt.2 hr)

end Claimed

theorem Station.freeClaim_eq_some_iff {s : Station} {p : ClaimPos} : s.freeClaim = some p ↔ s.FreeAt p := by
  unfold Station.freeClaim Station.FreeAt
  rw [lowestFind_eq_some]
  refine and_congr (by simp) (forall₂_congr fun j _ => ?_)
  simp [← Option.isSome_iff_ne_none]

theorem Station.freeClaim_eq_none_iff {s : Station} : s.freeClaim = none ↔ ∀ p : ClaimPos, s.index.claims[p] ≠ none := by
  unfold Station.freeClaim
  rw [lowestFind_eq_none]
  exact forall_congr' fun p => by simp [← Option.isSome_iff_ne_none]

section Absent
variable {s : Station} {x : Pair} {k : Key} {ps : Vector Place 8} {p : ClaimPos}

theorem Station.askAbsent_claimsFull (h : ∀ p : ClaimPos, s.index.claims[p] ≠ none) :
    s.askAbsent x k ps = (.noindex .claimsFull, s) := by
  rw [Station.askAbsent, Station.freeClaim_eq_none_iff.2 h]

theorem Station.askAbsent_bucketFull (h : s.FreeAt p) (hs : 8 ≤ s.sumOf (bucketIndex k) ps) :
    s.askAbsent x k ps = (.noindex .bucketFull, s) := by
  rw [Station.askAbsent, Station.freeClaim_eq_some_iff.2 h]
  exact if_pos (hs.trans_eq (Station.bucketSum_eq _ _ _).symm)

theorem Station.askAbsent_claims (h : s.FreeAt p) (hs : s.sumOf (bucketIndex k) ps < 8) : s.askAbsent x k ps =
    (.write, ((s.setClaim p (some ⟨k, bucketIndex k, x, s.clock.now + 64, none, []⟩)).bump .claimsCreated).bump
      .writeVerdicts) := by
  rw [Station.askAbsent, Station.freeClaim_eq_some_iff.2 h]
  exact if_neg (Nat.not_le.2 ((Station.bucketSum_eq _ _ _).trans_lt hs))

end Absent

/-- Settles O35. -/
theorem askDecided : Obligations.AskDecided := by
  intro s ha q x k rest ps ht ho
  rw [exec_ask_eq ha q ht ho]
  refine ⟨fun hp => ?_, fun hp => ⟨fun i hi hc => ?_, fun i hi hc => ?_, fun p c hn hc => ⟨fun hw => ?_, fun hw hm => ?_,
    fun hw hm hr => ?_, fun hw hm hr => ?_⟩, fun hn hc => ⟨fun hf => ?_, fun p hf hs => ?_, fun p hf hs => ?_⟩⟩⟩
  · rw [decideAsk_isolated hp]
    rfl
  · rw [decideAsk_held hp hi, raiseCount_pinned hc]
    rfl
  · rw [decideAsk_held hp hi, raiseCount_held hi hc]
    rfl
  · rw [decideAsk_claimed hp hn hc, Station.askClaimed_writer hw]
    rfl
  · rw [decideAsk_claimed hp hn hc, Station.askClaimed_waiter hw hm]
    rfl
  · rw [decideAsk_claimed hp hn hc, Station.askClaimed_joins hw hm hr]
    rfl
  · rw [decideAsk_claimed hp hn hc, Station.askClaimed_full hw hm hr]
    rfl
  · rw [decideAsk_absent hp hn hc (Station.askAbsent_claimsFull hf)]
    rfl
  · rw [decideAsk_absent hp hn hc (Station.askAbsent_bucketFull hf hs)]
    rfl
  · rw [decideAsk_absent hp hn hc (Station.askAbsent_claims hf hs)]
    rfl

end Sys2Proof.Machine
end

section
namespace Sys2Proof.Machine

/-! ### RELEASE items (R19, R57) -/

/-- A RELEASE taken off the queue is decided on its key's bucket. -/
theorem exec_releaseItem_eq {s : Station} (ha : s.DeadlinesActed) (q : List Instr) {x : Pair} {k : Key} {l : Locator}
    {rest : List WorkItem} {ps : Vector Place 8} (ht : s.TakesItem (.release x k l) rest) (ho : s.Opens (bucketIndex k) ps) :
    exec .releaseItem ⟨s, q⟩ =
      let d := decideRelease x k l ⟨ps, false, { s with index.queue := rest }⟩
      .next ⟨{ d.station with
        index.write := if d.changed then writeOf (bucketIndex k) d.places else none
        index.answers := d.answers }, q⟩ := by
  rw [exec_releaseItem_operation ha q ht, Station.bucketOperation_of_opens (s := { s with index.queue := rest }) ho]

/-- Where a RELEASE finds its entry at a place, R19 goes by the locator and the count there. -/
theorem releaseEntry_held {k : Key} {l : Locator} {ps : Vector Place 8} {i : Fin 8} (hi : HeldAt k ps i) :
    releaseEntry k l ps =
      if ps[i].locator ≠ l then (ps, false, .notFound)
      else if ps[i].count = 65535 then (ps, false, .pinned)
      else if ps[i].count = 1 then (clearPlace i ps, true, .retired)
      else (setCount i (ps[i].count - 1) ps, true, .counted) := by
  rw [releaseEntry, findPlace_eq_some_iff.2 hi]
  rfl

/-- The model's release of an entry is that of R19: the reply, and the places where they change. -/
theorem ReleaseDecides.releaseEntry_eq {k : Key} {l : Locator} {ps : Vector Place 8} {w : Option (Vector Place 8)}
    {o : ReleaseOutcome} (h : ReleaseDecides k l ps w o) : releaseEntry k l ps = (w.getD ps, w.isSome, o) := by
  cases h with
  | absent hn => rw [releaseEntry, findPlace_eq_none_iff.2 hn]; rfl
  | other i hi hl => rw [releaseEntry_held hi, if_pos hl]; rfl
  | pinned i hi hl hc => rw [releaseEntry_held hi, if_neg (not_not.2 hl), if_pos hc]; rfl
  | retired i hi hl hc =>
    rw [releaseEntry_held hi, if_neg (not_not.2 hl), if_neg (by rw [hc]; decide), if_pos hc]
    rfl
  | counted i hi hl hp hc =>
    rw [releaseEntry_held hi, if_neg (not_not.2 hl), if_neg hp, if_neg hc]
    obtain ⟨⟨hused, hpool, hfp⟩, -⟩ := hi
    refine congrArg (·, true, ReleaseOutcome.counted) (congrArg (ps.set i) ?_)
    rw [← hused, ← hpool, ← hfp, ← hl]

theorem Station.releaseRecord_eq {s : Station} {sender : StationNo} {n : Fin 15} (h : sender.toNat = n.val) :
    s.releaseRecord sender = s.index.records[n] := by
  simp [Station.releaseRecord, h]

section DecideRelease
variable {x : Pair} {k : Key} {l : Locator} {r : BucketRead} {n : Fin 15} (hn : x.station.toNat = n.val)
include hn

theorem decideRelease_repeat {o : ReleaseOutcome} (h : r.station.index.records[n] = some ⟨x.tag, k, l, o⟩) :
    decideRelease x k l r = ⟨r.places, false, [⟨x, .releaseReply o⟩], r.station⟩ := by
  rw [decideRelease, Station.releaseRecord_eq hn, h]
  exact if_pos ⟨rfl, rfl, rfl⟩

theorem decideRelease_fresh {w : Option (Vector Place 8)} {o : ReleaseOutcome}
    (h : ∀ o', r.station.index.records[n] ≠ some ⟨x.tag, k, l, o'⟩) (hd : ReleaseDecides k l r.places w o) :
    decideRelease x k l r = ⟨w.getD r.places, w.isSome, [⟨x, .releaseReply o⟩],
      { r.station with index.records := r.station.index.records.set n (some ⟨x.tag, k, l, o⟩) }⟩ := by
  have hset : r.station.index.records.setIfInBounds x.station.toNat (some ⟨x.tag, k, l, o⟩) =
      r.station.index.records.set n (some ⟨x.tag, k, l, o⟩) := by
    rw [hn]
    exact Vector.ext fun i hi => by simp [Vector.getElem_setIfInBounds, Vector.getElem_set]
  rw [decideRelease, Station.releaseRecord_eq hn, hd.releaseEntry_eq, ← hset]
  cases hr : r.station.index.records[n] with
  | none => rfl
  | some y =>
    refine if_neg fun hy => h y.reply ?_
    obtain ⟨htag, hkey, hloc⟩ := hy
    rw [hr, ← htag, ← hkey, ← hloc]

end DecideRelease

/-- Settles O38. -/
theorem releaseDecidedOnceAndRepeated : Obligations.ReleaseDecidedOnceAndRepeated := by
  intro s ha q x k l rest ps n ht ho hn
  rw [exec_releaseItem_eq ha q ht ho]
  refine ⟨fun o h => ?_, fun w o h hd => ?_⟩
  · rw [decideRelease_repeat hn h]
    rfl
  · rw [decideRelease_fresh hn h hd]
    cases w <;> rfl

end Sys2Proof.Machine
end

section
namespace Sys2Proof.Machine

/-! ### Claims released: DROP, lease expiry and the PEER items (R51, R52, R54, R58) -/

/-- The model's release of a claim is that of R51. -/
theorem Station.releaseClaim_eq_claimReleased (p : ClaimPos) (c : Claim) (s : Station) :
    s.releaseClaim p c = s.claimReleased p c := by
  obtain ⟨k, b, x, d, n, ws⟩ := c
  cases ws <;> rfl

/-- A release changes the claims alone, and what an operation leaves in the queue, the write-back and the answers stands
beside it. -/
theorem Station.claimReleased_withQueue (p : ClaimPos) (c : Claim) (rest : List WorkItem) (s : Station) :
    ({ s with index.queue := rest } : Station).claimReleased p c =
      ((s.claimReleased p c).1, { (s.claimReleased p c).2 with index.queue := rest }) := by
  obtain ⟨k, b, x, d, n, ws⟩ := c
  cases ws <;> rfl

theorem Station.claimReleased_queue (p : ClaimPos) (c : Claim) (s : Station) :
    (s.claimReleased p c).2.index.queue = s.index.queue := by
  obtain ⟨k, b, x, d, n, ws⟩ := c
  cases ws <;> rfl

section DecideDrop
variable {x : Pair} {k : Key} {r : BucketRead} {p : ClaimPos} {c : Claim}

theorem decideDrop_writer (hc : r.station.ClaimedAt k p c) (hw : c.writer = x) :
    decideDrop x k r = ⟨r.places, false, (r.station.claimReleased p c).1, (r.station.claimReleased p c).2⟩ := by
  rw [decideDrop, Station.claimOf_of_claimedAt hc, ← Station.releaseClaim_eq_claimReleased]
  dsimp only
  rw [hc.1]
  exact if_pos hw

theorem decideDrop_other (hc : r.station.ClaimedAt k p c) (hw : c.writer ≠ x) :
    decideDrop x k r = ⟨r.places, false, [], r.station.bump .staleDrops⟩ := by
  rw [decideDrop, Station.claimOf_of_claimedAt hc]
  dsimp only
  rw [hc.1]
  exact if_neg hw

theorem decideDrop_unclaimed (hn : r.station.NotClaimed k) :
    decideDrop x k r = ⟨r.places, false, [], r.station.bump .staleDrops⟩ := by
  rw [decideDrop, Station.claimOf_eq_none_iff.2 hn]

end DecideDrop

/-- A DROP taken off the queue is decided on its key's bucket, which it leaves as it is. -/
theorem exec_drop_eq {s : Station} (ha : s.DeadlinesActed) (q : List Instr) {x : Pair} {k : Key} {rest : List WorkItem}
    {ps : Vector Place 8} (ht : s.TakesItem (.drop x k) rest) (ho : s.Opens (bucketIndex k) ps) :
    exec .drop ⟨s, q⟩ =
      let d := decideDrop x k ⟨ps, false, { s with index.queue := rest }⟩
      .next ⟨{ d.station with
        index.write := if d.changed then writeOf (bucketIndex k) d.places else none
        index.answers := d.answers }, q⟩ := by
  rw [exec_drop_operation ha q ht, Station.bucketOperation_of_opens (s := { s with index.queue := rest }) ho]

/-- A lease expiry releases the claim on the bucket that the claim records, which it leaves as it is. -/
theorem exec_leaseExpiry_eq {s : Station} (ha : s.DeadlinesActed) (q : List Instr) {p : ClaimPos} {c : Claim} {n : Nat}
    {ps : Vector Place 8} (ht : s.TakesExpiry p c n) (ho : s.Opens c.bucket ps) :
    exec .leaseExpiry ⟨s, q⟩ =
      let r := (s.bump .leaseExpiries).claimReleased p c
      .next ⟨r.2.decided s.index.queue none r.1, q⟩ := by
  rw [exec_leaseExpiry_operation ha q ht, Station.bucketOperation_of_opens ho]
  have hqueue := Station.claimReleased_queue p c (s.bump .leaseExpiries)
  dsimp only [decideExpiry]
  rw [Station.releaseClaim_eq_claimReleased, hqueue]
  rfl

/-! #### A PEER item: one position after the other -/

/-- The NOTICE WRITE to the pair promoted, if any. -/
def noticeWrite (w : Option Pair) : List Answer := w.toList.map fun x => ⟨x, .notice .write⟩

theorem noticeWrite_at (f : ClaimPos → Option Pair) (p : ClaimPos) :
    noticeWrite (f p) = ([p].filterMap f).map fun x => ⟨x, .notice .write⟩ := by
  cases h : f p <;> simp [noticeWrite, List.filterMap, h]

/-- A promotion counted, if there is one. -/
def Station.promotionCounted (w : Option Pair) (s : Station) : Station :=
  match w with
  | some _ => s.counted 8
  | none => s

/-- At one position a PEER item leaves the claim without the peer, and tells and counts the writer that it promotes. -/
theorem Station.clearPeerAt_eq (peer : StationNo) (acc : List Answer × Station) (p : ClaimPos) :
    Station.clearPeerAt peer acc p =
      let c := acc.2.index.claims[p]
      (acc.1 ++ noticeWrite (c.bind (Claim.promotedBy peer)),
        (acc.2.withClaim p (c.bind (Claim.withoutPeer peer acc.2.clock.now))).promotionCounted
          (c.bind (Claim.promotedBy peer))) := by
  obtain ⟨as, s⟩ := acc
  have hbne : (fun w : Pair => w.station != peer) = fun w => decide (w.station ≠ peer) :=
    funext fun w => by simp [bne, beq_eq_decide]
  unfold Station.clearPeerAt
  dsimp only
  cases hc : s.index.claims[p] with
  | none =>
    have hsame : s.withClaim p none = s := by
      have : s.index.claims.set p none = s.index.claims := by
        rw [← hc]
        exact Vector.set_getElem_self p.isLt
      rw [Station.withClaim, this]
    simp [noticeWrite, hsame, Station.promotionCounted]
  | some c =>
    dsimp only [Option.bind_some]
    rw [hbne]
    by_cases hw : c.writer.station = peer
    · rw [if_pos hw, Claim.promotedBy, Claim.withoutPeer, if_pos hw, if_pos hw, Station.releaseClaim_eq_claimReleased]
      unfold Station.claimReleased
      cases c.waiters.filter fun w => decide (w.station ≠ peer) with
      | nil => rfl
      | cons w ws => rfl
    · rw [if_neg hw, Claim.promotedBy, Claim.withoutPeer, if_neg hw, if_neg hw]
      simp [noticeWrite, Station.promotionCounted, Station.setClaim, Station.withClaim]

/-- What a PEER item has done once it has gone over some positions. -/
structure Station.PeerCleared (peer : StationNo) (ps : List ClaimPos) (s : Station) (out : List Answer × Station) : Prop where
  claims : ∀ p : ClaimPos, out.2.index.claims[p] =
    if p ∈ ps then s.index.claims[p].bind (Claim.withoutPeer peer s.clock.now) else s.index.claims[p]
  answers : out.1 =
    (ps.filterMap fun p => s.index.claims[p].bind (Claim.promotedBy peer)).map fun w => ⟨w, .notice .write⟩
  counters : ∀ k : Fin 24, out.2.control.counters[k] =
    if k = 8 then s.control.counters[k] + BitVec.ofNat 32 out.1.length else s.control.counters[k]
  rest : ∃ v n, out.2 = { s with index.claims := v, control.counters := n }

theorem Station.promotionCounted_index (w : Option Pair) (s : Station) : (s.promotionCounted w).index = s.index := by
  cases w <;> rfl

theorem Station.promotionCounted_counters (w : Option Pair) (s : Station) (k : Fin 24) :
    (s.promotionCounted w).control.counters[k] =
      if k = 8 then s.control.counters[k] + BitVec.ofNat 32 (noticeWrite w).length else s.control.counters[k] := by
  cases w with
  | none => simp [Station.promotionCounted, noticeWrite]
  | some x =>
    simp only [Station.promotionCounted, Station.counted, noticeWrite, Vector.get_set_fin]
    by_cases hk : k = 8
    · simp [hk]
    · simp [hk, Ne.symm hk]

theorem Station.promotionCounted_rest (w : Option Pair) (s : Station) :
    ∃ n, s.promotionCounted w = { s with control.counters := n } := by
  cases w <;> exact ⟨_, rfl⟩

/-- One position more. -/
theorem Station.PeerCleared.step {peer : StationNo} {ps : List ClaimPos} {s : Station} {out : List Answer × Station}
    (h : s.PeerCleared peer ps out) {p : ClaimPos} (hp : p ∉ ps) :
    s.PeerCleared peer (ps ++ [p]) (Station.clearPeerAt peer out p) := by
  obtain ⟨hclaims, hanswers, hcounters, hrest⟩ := h
  have hat : out.2.index.claims[p] = s.index.claims[p] := by rw [hclaims p, if_neg hp]
  have hnow : out.2.clock = s.clock := by
    obtain ⟨v, n, hrest⟩ := hrest
    rw [hrest]
  rw [Station.clearPeerAt_eq, hat, hnow]
  refine ⟨fun p' => ?_, ?_, fun k => ?_, ?_⟩
  · simp only [Station.promotionCounted_index, Station.withClaim, Vector.get_set_fin, hclaims p']
    by_cases he : p = p'
    · subst he
      simp
    · simp [he, Ne.symm he]
  · rw [List.filterMap_append, List.map_append, hanswers]
    exact congrArg _ (noticeWrite_at (fun p => s.index.claims[p].bind (Claim.promotedBy peer)) p)
  · rw [Station.promotionCounted_counters]
    simp only [Station.withClaim, hcounters k, List.length_append]
    by_cases hk : k = 8
    · simp [hk, BitVec.ofNat_add, BitVec.add_assoc]
    · simp [hk]
  · obtain ⟨v, n, hrest⟩ := hrest
    rw [hrest]
    obtain ⟨n', hn⟩ := Station.promotionCounted_rest (s.index.claims[p].bind (Claim.promotedBy peer)) _
    exact ⟨_, n', hn⟩

theorem Station.PeerCleared.foldl (peer : StationNo) (s : Station) {ps : List ClaimPos} (h : ps.Nodup) :
    s.PeerCleared peer ps (ps.foldl (Station.clearPeerAt peer) ([], s)) := by
  induction ps using List.reverseRecOn with
  | nil => exact ⟨fun p => by simp, rfl, fun k => by simp, _, _, rfl⟩
  | append_singleton ps p ih =>
    have hp : p ∉ ps := fun hm => (List.nodup_append.1 h).2.2 p hm p (by simp) rfl
    rw [List.foldl_append]
    exact (ih (List.nodup_append.1 h).1).step hp

/-- A PEER item goes over every position of the claim table. -/
theorem Station.clearPeer_cleared (peer : StationNo) (s : Station) :
    ∃ out, s.PeerCleared peer (List.finRange 128) out ∧ s.clearPeer peer = { out.2 with index.answers := out.1 } :=
  ⟨_, .foldl peer s (List.nodup_finRange 128), rfl⟩

/-- A PEER item taken off the queue clears its peer. -/
theorem exec_peerItem_eq {s : Station} (ha : s.DeadlinesActed) (q : List Instr) {c : Instr} {peer : StationNo}
    {rest : List WorkItem} (h : c = .peerLost ∧ s.TakesItem (.peerLost peer) rest ∨
      c = .peerRestarted ∧ s.TakesItem (.peerRestarted peer) rest) :
    exec c ⟨s, q⟩ = .next ⟨({ s with index.queue := rest } : Station).clearPeer peer, q⟩ := by
  obtain ⟨rfl, ht⟩ | ⟨rfl, ht⟩ := h
  · simp only [exec, execPeerLost, runEvent_eq, Station.settled_of_acted ha]
    rw [ht.takeItem_eq (x := peer) rfl]
  · simp only [exec, execPeerRestarted, runEvent_eq, Station.settled_of_acted ha]
    rw [ht.takeItem_eq (x := peer) rfl]

/-- Settles O37. -/
theorem claimsReleasedAndPassedOn : Obligations.ClaimsReleasedAndPassedOn := by
  refine ⟨fun s ha q b ps ho => ⟨fun x k rest ht hb => ?_, fun p c n ht hb => ?_⟩, fun s ha q c peer rest h => ?_⟩
  · subst hb
    rw [exec_drop_eq ha q ht ho]
    refine ⟨fun p c hc hw => ?_, fun p c hc hw => ?_, fun hn => ?_⟩
    · rw [decideDrop_writer hc hw]
      dsimp only
      rw [Station.claimReleased_withQueue]
      rfl
    · rw [decideDrop_other hc hw]
      rfl
    · rw [decideDrop_unclaimed hn]
      rfl
  · subst hb
    exact exec_leaseExpiry_eq ha q ht ho
  · obtain ⟨⟨as, t⟩, hcleared, ht⟩ := Station.clearPeer_cleared peer { s with index.queue := rest }
    obtain ⟨hclaims, hanswers, hcounters, v, n, hrest⟩ := hcleared
    refine ⟨_, exec_peerItem_eq ha q h, ?_⟩
    rw [ht]
    refine ⟨fun p => ?_, hanswers, hcounters, ?_⟩
    · exact (hclaims p).trans (if_pos (List.mem_finRange p))
    · obtain rfl : t = _ := hrest
      rfl

end Sys2Proof.Machine
end

section
namespace Sys2Proof.Machine

/-! ### Requests on their way to the shared queues (R39, R64, R71) -/

/-- A tag is its round's four bits above its index's eight (R64). -/
theorem Station.mkTag_eq_tagOf (s : Station) (i : EntryIndex) : mkTag (s.entry i).round i = s.tagOf i := by
  refine BitVec.eq_of_toNat_eq ?_
  have hi := i.isLt
  have hr := (s.entry i).round.isLt
  rw [mkTag, Station.tagOf, BitVec.toNat_append, BitVec.toNat_ofNat, BitVec.toNat_ofNat, Nat.mod_eq_of_lt (by omega),
    ← Nat.shiftLeft_add_eq_or_of_lt (by omega), Nat.shiftLeft_eq, Nat.mod_eq_of_lt (by omega), Nat.mul_comm]

theorem Station.requestItem_eq (i : EntryIndex) (kind : RequestKind) (s : Station) :
    s.requestItem i kind = s.itemOf i kind := by
  unfold Station.requestItem Station.itemOf
  dsimp only
  rw [s.mkTag_eq_tagOf]
  rfl

theorem Station.requestFrame_eq (i : EntryIndex) (kind : RequestKind) (s : Station) :
    s.requestFrame i kind = s.frameOf i kind := by
  unfold Station.requestFrame Station.frameOf
  dsimp only
  rw [s.mkTag_eq_tagOf]
  rfl

theorem Entry.handedOn_eq (kind : RequestKind) (phase : Phase) (e : Entry) :
    e.handedOn kind phase = e.afterHandOn kind phase := by
  unfold Entry.handedOn Entry.afterHandOn
  simp only [Bool.and_eq_true, beq_iff_eq, Option.isNone_iff_eq_none, and_assoc]
  rfl

/-- The self path's delivery of an entry's request. -/
theorem Station.deliverSelf_eq {s : Station} {i : EntryIndex} {kind : RequestKind} {phase : Phase}
    (h : (s.entry i).request = some (kind, phase)) : s.deliverSelf i = { s.entryDelivered i kind with
      index := { s.index with queue := s.index.queue ++ [s.itemOf i kind] } } := by
  rw [Station.deliverSelf, h]
  dsimp only
  rw [Station.requestItem_eq, Entry.handedOn_eq]
  rfl

/-- The delivery of a request at the inbound head. -/
theorem Station.deliverInbound_eq {s : Station} {f : Frame} {fs : List Frame} {item : WorkItem}
    (h : s.bus.inbound = f :: fs) (hf : f.workItem = some item) : s.deliverInbound = { s with
      bus := { s.bus with inbound := fs, inboundWaits := false }
      index := { s.index with queue := s.index.queue ++ [item] } } := by
  rw [Station.deliverInbound, h]
  dsimp only
  rw [hf]
  rfl

theorem Station.workRoom_iff {s : Station} : s.workRoom = true ↔ s.index.queue.length < 32 := decide_eq_true_iff

theorem Station.workRoom_full {s : Station} (h : 32 ≤ s.index.queue.length) : s.workRoom = false :=
  Bool.eq_false_iff.2 (mt Station.workRoom_iff.1 (Nat.not_lt.2 h))

theorem Station.anyWaits_eq_false {s : Station} (h : ∀ src, s.sourceWaits src = false) : s.anyWaits = false := by
  rw [Station.anyWaits, h, h, h]
  rfl

/-! #### What a path offers (R71) -/

theorem Station.offers_iff {s : Station} {path : HandOnPath} {i : EntryIndex} :
    s.offers path i = true ↔ s.PendingOn path i := by
  have howner : ((s.entry i).owner == s.own) = (path == .self) ↔
      ((s.entry i).owner = s.control.straps.number ↔ path = .self) := by
    rw [Bool.eq_iff_iff, beq_iff_eq, beq_iff_eq]
    rfl
  unfold Station.offers Station.PendingOn
  dsimp only
  cases (s.entry i).request with
  | none => simp
  | some r =>
    obtain ⟨k, phase⟩ := r
    cases phase <;> simp [Entry.live, howner, and_assoc]

theorem Station.offerStands_iff {s : Station} {path : HandOnPath} {o : Offer} : s.offerStands path o = true ↔
    s.PendingOn path o.index ∧ (s.entry o.index).round = o.round ∧ (s.entry o.index).request = some (o.kind, .pending) := by
  unfold Station.offerStands
  simp only [Bool.and_eq_true, Station.offers_iff, beq_iff_eq, and_assoc]

end Sys2Proof.Machine
end

section
namespace Sys2Proof.Machine

/-! ### The index work queue's admission (R38, R39, R148) -/

/-! #### The order of the sources -/

theorem Source.after_distance (last src : Source) : last.after[Source.distance last src]? = some src := by
  cases last <;> cases src <;> rfl

theorem Source.distance_of_after {last src : Source} {j : Nat} (h : last.after[j]? = some src) :
    Source.distance last src = j := by
  have hnodup : last.after.Nodup := by cases last <;> decide
  have hat := Source.after_distance last src
  exact (List.getElem?_inj (List.getElem?_eq_some_iff.1 hat).1 hnodup).1 (hat.trans h.symm)

/-- Of the waiting sources the queue admits the one reached first from the one after the source admitted last. -/
theorem Station.nextSource_eq {s : Station} {src : Source} (hw : s.sourceWaits src = true)
    (hfirst : ∀ src', s.sourceWaits src' = true →
      Source.distance s.index.admittedLast src ≤ Source.distance s.index.admittedLast src') : s.nextSource = some src := by
  obtain ⟨hlt, hat⟩ := List.getElem?_eq_some_iff.1 (Source.after_distance s.index.admittedLast src)
  refine List.find?_eq_some_iff_getElem.2 ⟨hw, _, hlt, hat, fun j hj => ?_⟩
  have hd := Source.distance_of_after (List.getElem?_eq_getElem (hj.trans hlt))
  rw [Bool.not_eq_true']
  exact Bool.eq_false_iff.2 fun hwj => Nat.not_le.2 hj ((hfirst _ hwj).trans_eq hd)

theorem Station.nextSource_eq_none {s : Station} (h : ∀ src, s.sourceWaits src = false) : s.nextSource = none :=
  List.find?_eq_none.2 fun src _ => by simp [h src]

/-! #### The commands -/

/-- A request frame's work item carries its sender's pair. -/
theorem Frame.workItem_of_request {f : Frame} {item : WorkItem}
    (h : (∃ k, f.body = .ask k ∧ item = .ask ⟨f.sender, f.tag⟩ k) ∨ (∃ k, f.body = .drop k ∧ item = .drop ⟨f.sender, f.tag⟩ k) ∨
      (∃ k l, f.body = .commit k l ∧ item = .commit ⟨f.sender, f.tag⟩ k l) ∨
      (∃ k l, f.body = .release k l ∧ item = .release ⟨f.sender, f.tag⟩ k l)) : f.workItem = some item := by
  obtain ⟨k, hb, rfl⟩ | ⟨k, hb, rfl⟩ | ⟨k, l, hb, rfl⟩ | ⟨k, l, hb, rfl⟩ := h <;> rw [Frame.workItem, hb]

/-- A request at the inbound head goes to the index work queue. -/
theorem exec_inboundDispatch_request {s : Station} (ha : s.DeadlinesActed) (q : List Instr) {f : Frame} {fs : List Frame}
    {item : WorkItem} (h : s.bus.inbound = f :: fs) (hf : f.workItem = some item) :
    exec .inboundDispatch ⟨s, q⟩ = .next ⟨s.dispatchRequest, q⟩ := by
  simp only [exec, execInboundDispatch, runEvent_eq, Station.settled_of_acted ha, h]
  cases hb : f.body with
  | ask | commit | drop | release => rfl
  | answer | beacon => simp [Frame.workItem, hb] at hf

theorem Station.dispatchRequest_full {s : Station} (h : 32 ≤ s.index.queue.length) :
    s.dispatchRequest = { s with bus := { s.bus with inboundWaits := true } } := by
  rw [Station.dispatchRequest, Station.workRoom_full h]
  rfl

theorem Station.dispatchRequest_room {s : Station} (h : s.index.queue.length < 32)
    (hw : ∀ src, s.sourceWaits src = false) : s.dispatchRequest = s.deliverInbound := by
  rw [Station.dispatchRequest, Station.workRoom_iff.2 h, Station.anyWaits_eq_false hw]
  rfl

theorem exec_workQueueAdmit_admits {s : Station} (ha : s.DeadlinesActed) (q : List Instr) {src : Source}
    (h : s.index.queue.length < 32) (hw : s.sourceWaits src = true)
    (hfirst : ∀ src', s.sourceWaits src' = true →
      Source.distance s.index.admittedLast src ≤ Source.distance s.index.admittedLast src') :
    exec .workQueueAdmit ⟨s, q⟩ = .next ⟨s.admitSource src, q⟩ := by
  simp only [exec, execWorkQueueAdmit, runEvent_eq, Station.settled_of_acted ha, Station.workRoom_iff.2 h,
    Station.nextSource_eq hw hfirst, if_true]

theorem exec_workQueueAdmit_none {s : Station} (ha : s.DeadlinesActed) (q : List Instr)
    (h : 32 ≤ s.index.queue.length ∨ ∀ src, s.sourceWaits src = false) : exec .workQueueAdmit ⟨s, q⟩ = .next ⟨s, q⟩ := by
  simp only [exec, execWorkQueueAdmit, runEvent_eq, Station.settled_of_acted ha]
  obtain hf | hw := h
  · rw [Station.workRoom_full hf]
    rfl
  · rw [Station.nextSource_eq_none hw]
    split <;> rfl

/-! #### Each source's item -/

theorem Station.admitSource_bus {s : Station} {f : Frame} {fs : List Frame} {item : WorkItem}
    (h : s.bus.inbound = f :: fs) (hf : f.workItem = some item) : s.admitSource .bus = { s with
      bus := { s.bus with inbound := fs, inboundWaits := false }
      index := { s.index with queue := s.index.queue ++ [item], admittedLast := .bus } } := by
  rw [Station.admitSource]
  dsimp only
  rw [Station.deliverInbound_eq h hf]

theorem Station.admitSource_roster {s : Station} {item : WorkItem} (h : s.roster.held = some item) :
    s.admitSource .roster = { s with
      roster := { s.roster with held := none }
      index := { s.index with queue := s.index.queue ++ [item], admittedLast := .roster } } := by
  rw [Station.admitSource]
  dsimp only
  rw [Station.deliverHeld, h]
  rfl

theorem Station.admitSource_exchange {s : Station} {o : Offer} (h : s.exchange.offerSelf = some o)
    (hs : s.offerStands .self o = true) : s.admitSource .exchange = { s.entryDelivered o.index o.kind with
      index := { s.index with queue := s.index.queue ++ [s.itemOf o.index o.kind], admittedLast := .exchange } } := by
  obtain ⟨-, -, hrequest⟩ := Station.offerStands_iff.1 hs
  rw [Station.admitSource]
  dsimp only
  rw [h]
  dsimp only
  rw [Station.deliverSelf_eq hrequest]

theorem Station.exchange_waits {s : Station} {o : Offer} (h : s.exchange.offerSelf = some o)
    (hs : s.offerStands .self o = true) : s.sourceWaits .exchange = true := by
  have hoffer : s.exchange.offer .self = some o := h
  rw [Station.sourceWaits, Station.pathWaits, hoffer]
  exact hs

/-- Settles O42. -/
theorem workQueueAdmitsInTurn : Obligations.WorkQueueAdmitsInTurn := by
  intro s ha q f fs item
  refine ⟨fun hin hreq => ?_, fun hlt hheld hfirst => ?_, fun o hlt ho hs hfirst => ?_, exec_workQueueAdmit_none ha q⟩
  · have hf := Frame.workItem_of_request hreq
    refine ⟨fun hfull => ?_, fun hlt hw => ?_, fun hlt hw hfirst => ?_⟩
    · rw [exec_inboundDispatch_request ha q hin hf, Station.dispatchRequest_full hfull]
    · rw [exec_inboundDispatch_request ha q hin hf, Station.dispatchRequest_room hlt hw, Station.deliverInbound_eq hin hf]
    · rw [exec_workQueueAdmit_admits ha q (src := .bus) hlt hw hfirst, Station.admitSource_bus hin hf]
  · have hw : s.sourceWaits .roster = true := by
      rw [Station.sourceWaits, hheld]
      rfl
    rw [exec_workQueueAdmit_admits ha q hlt hw hfirst, Station.admitSource_roster hheld]
  · rw [exec_workQueueAdmit_admits ha q hlt (Station.exchange_waits ho hs) hfirst, Station.admitSource_exchange ho hs]

end Sys2Proof.Machine
end

section
namespace Sys2Proof.Machine

/-! ### REQUEST_HAND_ON (R71) -/

/-- Where the path's next request is entry `i`'s, the model offers it. -/
theorem Station.HandsOnNext.offered_eq {s : Station} {path : HandOnPath} {i : EntryIndex} (h : s.HandsOnNext path i) :
    s.offered path = some i := by
  have hring (start : EntryIndex) (hp : s.PendingOn path i)
      (hfirst : ∀ j : EntryIndex, (j - start).val < (i - start).val → ¬s.PendingOn path j) :
      ringFind start (s.offers path) = some i := by
    refine ringFind_eq_some.2 ⟨Station.offers_iff.2 hp, fun k hk => Bool.eq_false_iff.2 fun hj => ?_⟩
    exact hfirst (start + k) (by rwa [add_sub_cancel_left]) (Station.offers_iff.1 hj)
  unfold Station.HandsOnNext at h
  obtain ⟨o, ho, hstands, rfl⟩ | ⟨hno, hp, hfirst⟩ := h
  · have hoffer : s.exchange.offer path = some o := by cases path <;> exact ho
    unfold Station.offered
    rw [hoffer]
    exact if_pos (Station.offerStands_iff.2 hstands)
  · unfold Station.offered
    cases hoffer : s.exchange.offer path with
    | none => exact hring _ hp hfirst
    | some o =>
      have ho := hno o (by cases path <;> exact hoffer)
      exact (if_neg (mt Station.offerStands_iff.1 ho)).trans (hring _ hp hfirst)

/-- With no request pending for the path the model offers none. -/
theorem Station.offered_eq_none {s : Station} {path : HandOnPath} (h : ∀ j, ¬s.PendingOn path j) :
    s.offered path = none := by
  have hring (start : EntryIndex) : ringFind start (s.offers path) = none :=
    ringFind_eq_none.2 fun j => Bool.eq_false_iff.2 (mt Station.offers_iff.1 (h j))
  unfold Station.offered
  cases s.exchange.offer path with
  | none => exact hring _
  | some o => exact (if_neg fun ho => h _ (Station.offerStands_iff.1 ho).1).trans (hring _)

section Command
variable {s : Station} (ha : s.DeadlinesActed) (q : List Instr) {i : EntryIndex}
include ha

theorem exec_requestHandOn_self (h : s.HandsOnNext .self i) :
    exec (.requestHandOn .self) ⟨s, q⟩ = .next ⟨s.handOnSelf i, q⟩ := by
  simp only [exec, execRequestHandOn, runEvent_eq, Station.settled_of_acted ha, h.offered_eq]

theorem exec_requestHandOn_bus (h : s.HandsOnNext .bus i) :
    exec (.requestHandOn .bus) ⟨s, q⟩ = .next ⟨s.handOnBus i, q⟩ := by
  simp only [exec, execRequestHandOn, runEvent_eq, Station.settled_of_acted ha, h.offered_eq]

theorem exec_requestHandOn_none {path : HandOnPath} (h : ∀ j, ¬s.PendingOn path j) :
    exec (.requestHandOn path) ⟨s, q⟩ = .next ⟨s, q⟩ := by
  simp only [exec, execRequestHandOn, runEvent_eq, Station.settled_of_acted ha, Station.offered_eq_none h]

end Command

/-- R138's turn gives a free place to the exchange unit. -/
theorem Station.exchangeTurn_iff {s : Station} : s.exchangeTurn = true ↔
    (s.bus.indexWaits = true → s.pathWaits .bus = true ∧ s.bus.txLast ≠ .exchange) := by
  unfold Station.exchangeTurn
  cases s.bus.indexWaits <;> simp

theorem Station.txRoom_full {s : Station} (h : 48 ≤ s.bus.tx.length) : s.txRoom = false :=
  Bool.eq_false_iff.2 (mt Station.txRoom_iff.1 (Nat.not_lt.2 h))

/-- The class of a request's frame (R136): an ASK's is 2, any other's 1. -/
theorem Station.frameOf_cls (s : Station) (i : EntryIndex) (kind : RequestKind) :
    (s.frameOf i kind).body.cls = if kind = .ask then 2 else 1 := by
  cases kind <;> rfl

section Paths
variable {s : Station} {i : EntryIndex} {kind : RequestKind} {phase : Phase} (hr : (s.entry i).request = some (kind, phase))

theorem Station.handOnSelf_room (h : s.index.queue.length < 32) (hw : ∀ src, s.sourceWaits src = false) :
    s.handOnSelf i = s.deliverSelf i := by
  rw [Station.handOnSelf, Station.workRoom_iff.2 h, Station.anyWaits_eq_false hw]
  rfl

theorem Station.handOnBus_waits (h : s.bus.tx.length < 48) (ht : s.exchangeTurn = false) : s.handOnBus i = s := by
  rw [Station.handOnBus, Station.txRoom_iff.2 h, ht]
  rfl

include hr

theorem Station.handOnSelf_full (h : 32 ≤ s.index.queue.length) : s.handOnSelf i =
    { s with exchange := { s.exchange with offerSelf := some ⟨i, (s.entry i).round, kind⟩ } } := by
  rw [Station.handOnSelf, Station.workRoom_full h, Station.recordOffer, hr]
  rfl

theorem Station.handOnBus_full (h : 48 ≤ s.bus.tx.length) : s.handOnBus i =
    { s with exchange := { s.exchange with offerBus := some ⟨i, (s.entry i).round, kind⟩ } } := by
  rw [Station.handOnBus, Station.txRoom_full h, Station.recordOffer, hr]
  rfl

/-- With room and its turn, the request's frame joins behind the frames of its own class and lower ones. -/
theorem Station.handOnBus_frame (h : s.bus.tx.length < 48) (ht : s.exchangeTurn = true) {xs ys : List TxFrame}
    (hq : s.bus.tx = xs ++ ys) (hx : ∀ f ∈ xs, f.frame.body.cls ≤ if kind = .ask then 2 else 1)
    (hy : ∀ f ∈ ys, ¬f.frame.body.cls ≤ if kind = .ask then 2 else 1) : s.handOnBus i = { s with
      exchange := { s.exchange with
        entries := s.exchange.entries.set i ((s.entry i).afterHandOn kind .sent), nextBus := i + 1, offerBus := none }
      bus := { s.bus with
        tx := xs ++ ⟨s.frameOf i kind, .exchange, 0, .waiting⟩ :: ys
        txLast := if s.pathWaits .bus then .exchange else s.bus.txLast } } := by
  have hins : txInsert ⟨s.frameOf i kind, .exchange, 0, .waiting⟩ s.bus.tx =
      xs ++ ⟨s.frameOf i kind, .exchange, 0, .waiting⟩ :: ys := by
    rw [hq]
    refine txInsert_append (fun g hg => ?_) fun g hg => ?_
    · exact (hx g hg).trans_eq (s.frameOf_cls i kind).symm
    · exact fun hle => hy g hg (hle.trans_eq (s.frameOf_cls i kind))
  rw [Station.handOnBus, Station.txRoom_iff.2 h, ht, Station.deliverBus, hr]
  simp only [Station.txPush, Station.requestFrame_eq, Entry.handedOn_eq, hins]
  rfl

end Paths

/-- Settles O47. -/
theorem requestsHandedOnByPath : Obligations.RequestsHandedOnByPath := by
  refine ⟨fun s ha q i kind phase => ⟨fun hi hr => ⟨fun hlt hw => ?_, fun hfull => ?_⟩, exec_requestHandOn_none ha q⟩,
    fun s ha q i kind phase => ⟨fun hi hr => ⟨fun xs ys hlt hturn hq hx hy => ?_, fun hfull => ?_, fun hlt hw hturn => ?_⟩,
      exec_requestHandOn_none ha q⟩⟩
  · rw [exec_requestHandOn_self ha q hi, Station.handOnSelf_room hlt hw, Station.deliverSelf_eq hr]
  · rw [exec_requestHandOn_self ha q hi, Station.handOnSelf_full hr hfull]
  · rw [exec_requestHandOn_bus ha q hi, Station.handOnBus_frame hr hlt (Station.exchangeTurn_iff.2 hturn) hq hx hy]
  · rw [exec_requestHandOn_bus ha q hi, Station.handOnBus_full hr hfull]
  · have hno : s.exchangeTurn = false := Bool.eq_false_iff.2 fun ht => by
      obtain ⟨hp, hl⟩ := Station.exchangeTurn_iff.1 ht hw
      obtain hturn | hturn := hturn
      · exact absurd hp (by simp [hturn])
      · exact hl hturn
    rw [exec_requestHandOn_bus ha q hi, Station.handOnBus_waits hlt hno]

end Sys2Proof.Machine
end

section
namespace Sys2Proof.Machine

/-! ### Exchanges that fail, entries that are freed (R72, R76, R79, R81, R82) -/

theorem Entry.release_eq (e : Entry) : e.release = e.freedOrOwing := by
  unfold Entry.release Entry.freedOrOwing
  cases h : e.owed with
  | none => rfl
  | some r =>
    dsimp only [Entry.owing]
    rw [← h]
    exact if_pos (by rw [h]; rfl)

/-- The model's failed attempt is that of the statements. -/
theorem Station.attemptFailed_eq (i : EntryIndex) (s : Station) : s.attemptFailed i = s.exchangeFailed i := by
  unfold Station.attemptFailed Station.exchangeFailed Station.exhaust
  dsimp only
  simp only [Station.storeUnindexed_eq]
  refine if_congr Iff.rfl rfl ?_
  cases (s.entry i).state <;> rfl

/-- The model's RELEASE given up is that of the statements. -/
theorem Station.giveUp_eq (o : ReleasedOutcome) (i : EntryIndex) (s : Station) : s.giveUp o i = s.releaseGivenUp o i := by
  unfold Station.giveUp Station.releaseGivenUp
  dsimp only
  rw [Entry.release_eq]
  cases (s.entry i).kind <;> rfl

end Sys2Proof.Machine
end

section
namespace Sys2Proof.Machine

/-! ### The deadlines of an advance (R53, R73, R77, R88, R156, R160, R164) -/

/-! #### An entry's answer deadline: its clearing does not show in what follows -/

theorem Station.setEntry_setEntry (i : EntryIndex) (e e' : Entry) (s : Station) :
    (s.setEntry i e).setEntry i e' = s.setEntry i e' := by
  rw [Station.setEntry, Station.setEntry, Station.setEntry]
  exact congrArg (fun v => { s with exchange.entries := v }) (Vector.set_set ..)

theorem Station.setEntry_moveSlot (i : EntryIndex) (e : Entry) (b : Option Binding) (f : Slot → Slot) (s : Station) :
    (s.setEntry i e).moveSlot b f = (s.moveSlot b f).setEntry i e := by
  cases b <;> rfl

/-- An entry of the station with its deadline cleared. -/
def Station.deadlineCleared (i : EntryIndex) (s : Station) : Station := s.setEntry i { s.entry i with deadline := none }

theorem Station.entry_deadlineCleared (i : EntryIndex) (s : Station) :
    (s.deadlineCleared i).entry i = { s.entry i with deadline := none } := by
  rw [Station.deadlineCleared, Station.entry_setEntry, if_pos rfl]

section Fails
variable {s : Station} {i : EntryIndex}

theorem Station.exchangeFailed_again (h : (s.entry i).attempts < 3) : s.exchangeFailed i =
    s.setEntry i { s.entry i with
      attempts := (s.entry i).attempts + 1
      request := (s.entry i).request.map fun r => (r.1, .pending)
      deadline := none } := if_pos h

theorem Station.exchangeFailed_asking (h : ¬(s.entry i).attempts < 3) (hs : (s.entry i).state = .asking) :
    s.exchangeFailed i =
      (s.slotUnindexed .noAnswer (s.entry i).binding).setEntry i ((s.entry i).orphanOf .ask s.clock.now) := by
  refine (if_neg h).trans ?_
  rw [hs]

theorem Station.exchangeFailed_committing (h : ¬(s.entry i).attempts < 3) (hs : (s.entry i).state = .committing) :
    s.exchangeFailed i =
      (s.moveSlot (s.entry i).binding fun y =>
        { y with state := .resolved .doubt, locator := some ((s.entry i).locator.getD 0) }).setEntry i
        ((s.entry i).orphanOf .doubtCommit s.clock.now) := by
  refine (if_neg h).trans ?_
  rw [hs]

theorem Station.releaseGivenUp_hostRelease {o : ReleasedOutcome} (h : (s.entry i).kind = .hostRelease) :
    s.releaseGivenUp o i = s.setEntry i ((s.entry i).owing (.released o)) := by
  rw [Station.releaseGivenUp, h]

theorem Station.releaseGivenUp_compensation {o : ReleasedOutcome} (h : (s.entry i).kind = .compensation) :
    s.releaseGivenUp o i = (s.counted 23).setEntry i (s.entry i).freedOrOwing := by
  rw [Station.releaseGivenUp, h]

theorem Station.exchangeFailed_deadlineCleared (hs : (s.entry i).state = .asking ∨ (s.entry i).state = .committing) :
    (s.deadlineCleared i).exchangeFailed i = s.exchangeFailed i := by
  have he := s.entry_deadlineCleared i
  by_cases h : (s.entry i).attempts < 3
  · rw [Station.exchangeFailed_again h, Station.exchangeFailed_again (by rw [he]; exact h), he]
    exact Station.setEntry_setEntry ..
  · have h' : ¬((s.deadlineCleared i).entry i).attempts < 3 := by rw [he]; exact h
    obtain hs | hs := hs
    · rw [Station.exchangeFailed_asking h hs, Station.exchangeFailed_asking h' (by rw [he]; exact hs), he,
        Station.slotUnindexed, Station.deadlineCleared, Station.setEntry_moveSlot]
      exact Station.setEntry_setEntry i _ _ (s.slotUnindexed .noAnswer (s.entry i).binding)
    · rw [Station.exchangeFailed_committing h hs, Station.exchangeFailed_committing h' (by rw [he]; exact hs), he,
        Station.deadlineCleared, Station.setEntry_moveSlot]
      exact Station.setEntry_setEntry ..

theorem Entry.freedOrOwing_deadlineCleared (e : Entry) : ({ e with deadline := none } : Entry).freedOrOwing = e.freedOrOwing := by
  unfold Entry.freedOrOwing
  cases e.owed <;> rfl

theorem Station.releaseGivenUp_deadlineCleared {o : ReleasedOutcome} (h : (s.entry i).kind ≠ .askExchange) :
    (s.deadlineCleared i).releaseGivenUp o i = s.releaseGivenUp o i := by
  have he := s.entry_deadlineCleared i
  cases hk : (s.entry i).kind with
  | askExchange => exact absurd hk h
  | hostRelease =>
    rw [Station.releaseGivenUp_hostRelease hk, Station.releaseGivenUp_hostRelease (by rw [he]; exact hk), he]
    exact Station.setEntry_setEntry ..
  | compensation =>
    rw [Station.releaseGivenUp_compensation hk, Station.releaseGivenUp_compensation (by rw [he]; exact hk), he,
      Entry.freedOrOwing_deadlineCleared]
    exact Station.setEntry_setEntry i _ _ (s.counted 23)

end Fails

section Expired
variable {s : Station} {i : EntryIndex}

theorem Station.answerExpired_fails (h : (s.entry i).state = .asking ∨ (s.entry i).state = .committing) :
    s.answerExpired i = s.exchangeFailed i := by
  rw [← Station.exchangeFailed_deadlineCleared h, ← Station.attemptFailed_eq]
  obtain h | h := h <;> simp [Station.answerExpired, Station.deadlineCleared, h]

theorem Station.answerExpired_releasing (h : (s.entry i).state = .releasing) (hk : (s.entry i).kind ≠ .askExchange) :
    s.answerExpired i = s.releaseGivenUp .uncertain i := by
  rw [← Station.releaseGivenUp_deadlineCleared hk, ← Station.giveUp_eq]
  simp [Station.answerExpired, Station.deadlineCleared, h]

theorem Station.holdExpired_holding (h : (s.entry i).state = .holding) : s.holdExpired i =
    (s.slotUnindexed .holdExpired (s.entry i).binding).setEntry i ((s.entry i).orphanOf .hold s.clock.now) := by
  unfold Station.holdExpired
  dsimp only
  rw [h, Station.storeUnindexed_eq]
  rfl

theorem Station.orphanExpired_abortCommit (h : (s.entry i).state = .orphan .abortCommit) :
    s.orphanExpired i = s.setEntry i ((s.entry i).owing (.doubt ((s.entry i).locator.getD 0))) := by
  unfold Station.orphanExpired
  dsimp only
  rw [h]
  rfl

theorem Station.orphanExpired_other {o : Origin} (ho : o ≠ .abortCommit) (h : (s.entry i).state = .orphan o) :
    s.orphanExpired i = s.setEntry i (s.entry i).freedOrOwing := by
  unfold Station.orphanExpired
  dsimp only
  rw [h, Entry.release_eq]
  cases o with
  | abortCommit => exact absurd rfl ho
  | ask | hold | doubtCommit => rfl

end Expired

/-! #### The rows of the opcode table -/

theorem Entry.deadlineReached_iff {e : Entry} {sort : DeadlineSort} {now : Tick} : e.deadlineReached sort now = true ↔
    ∃ d, e.deadline = some (sort, d) ∧ (now - d).toNat < 32768 := by
  unfold Entry.deadlineReached
  cases h : e.deadline with
  | none => simp
  | some p =>
    obtain ⟨x, d⟩ := p
    simp [reached]

theorem Station.takeDeadline_of_mem {s : Station} {d : Deadline} (h : d ∈ s.clock.reached) (act : Station → Station) :
    s.takeDeadline d act = act (s.deadlineTaken d) := if_pos h

theorem Station.takeDeadline_of_not_mem {s : Station} {d : Deadline} (h : d ∉ s.clock.reached) (act : Station → Station) :
    s.takeDeadline d act = s := if_neg h

section EntryRows
variable {s : Station} {i : EntryIndex}

theorem Station.EntryDue.takeEntryDeadline_eq {sort : DeadlineSort} (h : s.EntryDue sort i) :
    s.takeEntryDeadline sort i = (s.deadlineTaken (.entry i)).expireEntry sort i :=
  (if_pos (Entry.deadlineReached_iff.2 h.2)).trans (Station.takeDeadline_of_mem h.1 _)

theorem Station.EntryDue.answer (h : s.EntryDue .answer i) (q : List Instr) : exec (.answerDeadline i) ⟨s, q⟩ =
    .next ⟨(s.deadlineTaken (.entry i)).answerExpired i, q⟩ := by
  have hact : (s.deadlineTaken (.entry i)).expireEntry .answer i = (s.deadlineTaken (.entry i)).answerExpired i :=
    if_pos (Entry.deadlineReached_iff.2 h.2)
  simp only [exec, execAnswerDeadline, runStation_eq, h.takeEntryDeadline_eq, hact]

theorem Station.EntryDue.hold (h : s.EntryDue .hold i) (q : List Instr) : exec (.holdDeadline i) ⟨s, q⟩ =
    .next ⟨(s.deadlineTaken (.entry i)).holdExpired i, q⟩ := by
  have hact : (s.deadlineTaken (.entry i)).expireEntry .hold i = (s.deadlineTaken (.entry i)).holdExpired i :=
    if_pos (Entry.deadlineReached_iff.2 h.2)
  simp only [exec, execHoldDeadline, runStation_eq, h.takeEntryDeadline_eq, hact]

theorem Station.EntryDue.orphanHold (h : s.EntryDue .orphanHold i) (q : List Instr) :
    exec (.orphanHoldDeadline i) ⟨s, q⟩ = .next ⟨(s.deadlineTaken (.entry i)).orphanExpired i, q⟩ := by
  have hact : (s.deadlineTaken (.entry i)).expireEntry .orphanHold i = (s.deadlineTaken (.entry i)).orphanExpired i :=
    if_pos (Entry.deadlineReached_iff.2 h.2)
  simp only [exec, execOrphanHoldDeadline, runStation_eq, h.takeEntryDeadline_eq, hact]

theorem Station.takeEntryDeadline_of_not_mem (h : Deadline.entry i ∉ s.clock.reached) (sort : DeadlineSort) :
    s.takeEntryDeadline sort i = s := by
  rw [Station.takeEntryDeadline, Station.takeDeadline_of_not_mem h, ite_self]

theorem exec_entryRow_of_not_mem (h : Deadline.entry i ∉ s.clock.reached) (q : List Instr) {c : Instr}
    (hc : c ∈ [Instr.answerDeadline i, .holdDeadline i, .orphanHoldDeadline i]) : exec c ⟨s, q⟩ = .next ⟨s, q⟩ := by
  simp only [List.mem_cons, List.not_mem_nil, or_false] at hc
  have htake := Station.takeEntryDeadline_of_not_mem h
  obtain rfl | rfl | rfl := hc
  · simp only [exec, execAnswerDeadline, runStation_eq, htake]
  · simp only [exec, execHoldDeadline, runStation_eq, htake]
  · simp only [exec, execOrphanHoldDeadline, runStation_eq, htake]

end EntryRows

section OtherRows
variable {s : Station} (q : List Instr)

theorem exec_leaseDeadline_due {p : ClaimPos} {c : Claim} (hm : Deadline.claim p ∈ s.clock.reached)
    (hc : s.index.claims[p] = some c) (hd : c.due = none) (hr : (s.clock.now - c.deadline).toNat < 32768) :
    exec (.leaseDeadline p) ⟨s, q⟩ =
      .next ⟨(s.deadlineTaken (.claim p)).withClaim p (some { c with due := some s.clock.advances }), q⟩ := by
  have hreached : (s.deadlineTaken (.claim p)).claimReached p = true := by
    have hc' : (s.deadlineTaken (.claim p)).index.claims[p] = some c := hc
    rw [Station.claimReached, hc']
    dsimp only
    rw [hd]
    exact decide_eq_true hr
  have hc' : (s.deadlineTaken (.claim p)).index.claims[p] = some c := hc
  simp only [exec, execLeaseDeadline, runStation_eq, Station.takeDeadline_of_mem hm, Station.markDue]
  rw [hc']
  dsimp only
  rw [if_pos hreached]
  rfl

theorem exec_silenceDeadline_due {p : StationNo} (hm : Deadline.peer p ∈ s.clock.reached)
    (hs : (s.peer p).state = .serving) (hn : (s.peer p).silence = false)
    (hr : (s.clock.now - ((s.peer p).lastHeard + 48)).toNat < 32768) : exec (.silenceDeadline p) ⟨s, q⟩ =
      .next ⟨(s.deadlineTaken (.peer p)).setPeer p { s.peer p with silence := true }, q⟩ := by
  have hreached : (s.deadlineTaken (.peer p)).peerReached p = true := by
    change (_ && _ && _) = true
    rw [Bool.and_eq_true, Bool.and_eq_true, Bool.not_eq_true']
    exact ⟨⟨beq_iff_eq.2 hs, hn⟩, decide_eq_true hr⟩
  simp only [exec, execSilenceDeadline, runStation_eq, Station.takeDeadline_of_mem hm, Station.markSilence, hreached,
    if_true]
  rfl

theorem exec_beaconDue_due {d : Tick} (hm : Deadline.beacon ∈ s.clock.reached) (hb : s.roster.beaconDeadline = some d)
    (hr : (s.clock.now - d).toNat < 32768) : exec .beaconDue ⟨s, q⟩ =
      .next ⟨Station.afterBeaconDue { s.deadlineTaken .beacon with
        roster := { s.roster with beaconDeadline := some (d + 16) } }, q⟩ := by
  have hb' : (s.deadlineTaken .beacon).roster.beaconDeadline = some d := hb
  have hreached : (s.deadlineTaken .beacon).beaconReached = true := by
    rw [Station.beaconReached, hb']
    exact decide_eq_true hr
  simp only [exec, execBeaconDue, runStation_eq, Station.takeDeadline_of_mem hm, Station.beaconExpired]
  rw [hb']
  dsimp only
  rw [if_pos hreached, Station.beaconFallsDue_eq]
  rfl

end OtherRows

/-! #### Any other command acts on the deadlines first (assumption 5) -/

/-- A row that acts on an entry's deadline acts as the list's own turn would. -/
theorem Station.takeEntryDeadline_eq (sort : DeadlineSort) (i : EntryIndex) (s : Station) :
    s.takeEntryDeadline sort i = s ∨ s.takeEntryDeadline sort i = s.takeDeadline (.entry i) (·.actDeadline (.entry i)) := by
  unfold Station.takeEntryDeadline
  split
  · rename_i hr
    obtain ⟨d, hd, -⟩ := Entry.deadlineReached_iff.1 hr
    have hd' : ((s.deadlineTaken (.entry i)).entry i).deadline = some (sort, d) := hd
    refine .inr (if_congr Iff.rfl ?_ rfl)
    change (s.deadlineTaken (.entry i)).expireEntry sort i = (s.deadlineTaken (.entry i)).entryExpired i
    rw [Station.entryExpired, hd']
  · exact .inl rfl

/-- The row of a deadline leaves the station as it is, or takes the deadline as the list's own turn would. -/
theorem exec_row_eq {d : Deadline} {r : Instr} (h : d.Row r) (s : Station) (q : List Instr) :
    exec r ⟨s, q⟩ = .next ⟨s, q⟩ ∨ exec r ⟨s, q⟩ = .next ⟨s.takeDeadline d (·.actDeadline d), q⟩ := by
  cases h with
  | claim | peer | beacon => exact .inr rfl
  | answer i | hold i | orphanHold i =>
    exact (Station.takeEntryDeadline_eq _ i s).imp (congrArg fun t => runStation (fun _ => t) ⟨s, q⟩)
      (congrArg fun t => runStation (fun _ => t) ⟨s, q⟩)

theorem Station.settled_takeDeadline {s : Station} {d : Deadline} {ds : List Deadline} (h : s.clock.reached = d :: ds) :
    (s.takeDeadline d (·.actDeadline d)).settled = s.settled := by
  have hm : d ∈ s.clock.reached := by rw [h]; exact List.mem_cons_self
  have htaken : s.deadlineTaken d = { s with clock.reached := ds } := by
    rw [Station.deadlineTaken, h, List.erase_cons_head]
  rw [Station.takeDeadline_of_mem hm, Station.settled_cons h, htaken, Station.settled,
    (Station.actDeadline_blocks d _).2.2.2.1]

/-- Every command but the rows of the deadlines runs alike on two stations that the deadlines leave the same. -/
theorem exec_congr_settled {s t : Station} (h : s.settled = t.settled) {c : Instr} (hc : ∀ d, ¬Deadline.Row d c)
    (q : List Instr) : exec c ⟨s, q⟩ = exec c ⟨t, q⟩ := by
  have hrow : Instr.isDeadlineRow c = false := by
    cases c with
    | leaseDeadline p => exact absurd (.claim p) (hc _)
    | answerDeadline i => exact absurd (.answer i) (hc _)
    | holdDeadline i => exact absurd (.hold i) (hc _)
    | orphanHoldDeadline i => exact absurd (.orphanHold i) (hc _)
    | silenceDeadline p => exact absurd (.peer p) (hc _)
    | beaconDue => exact absurd .beacon (hc _)
    | _ => rfl
  rw [exec_settled hrow ⟨s, q⟩, exec_settled hrow ⟨t, q⟩, h]

theorem step_congr_settled {s t : Station} (h : s.settled = t.settled) : step ⟨s, []⟩ = step ⟨t, []⟩ := by
  rw [step_nil, step_nil, h]

/-- A deadline of an entry that is no longer reached is dropped from the list. -/
theorem Station.settled_entry_passed {s : Station} {i : EntryIndex} {ds : List Deadline}
    (h : s.clock.reached = .entry i :: ds)
    (hp : ∀ k v, (s.entry i).deadline = some (k, v) → 32768 ≤ (s.clock.now - v).toNat) :
    s.settled = ({ s with clock := { s.clock with reached := ds } } : Station).settled := by
  have hact : ({ s with clock.reached := ds } : Station).actDeadline (.entry i) = { s with clock.reached := ds } := by
    change Station.entryExpired i _ = _
    have hsame : ({ s with clock.reached := ds } : Station).entry i = s.entry i := rfl
    rw [Station.entryExpired, hsame]
    cases hd : (s.entry i).deadline with
    | none => rfl
    | some p =>
      obtain ⟨sort, v⟩ := p
      refine if_neg fun hr => ?_
      obtain ⟨v', hv', hlt⟩ := Entry.deadlineReached_iff.1 hr
      exact absurd hlt (Nat.not_lt.2 (hp sort v' hv'))
  rw [Station.settled_cons h, hact]
  rfl

/-- Settles O49. -/
theorem deadlinesActedOnce : Obligations.DeadlinesActedOnce := by
  refine ⟨fun s q i => ⟨fun hdue => ⟨fun h => ?_, fun h hk => ?_⟩, fun hdue h => ?_,
      fun hdue => ⟨fun h => ?_, fun o ho h => ?_⟩, fun hm c hc => exec_entryRow_of_not_mem hm q hc⟩,
    fun s q => ⟨fun p c => exec_leaseDeadline_due q, fun p => exec_silenceDeadline_due q, fun d => exec_beaconDue_due q⟩,
    fun s q d ds hr => ⟨fun r t hrow ht => ?_, fun i hi hp c hc => ?_⟩⟩
  · rw [hdue.answer, Station.answerExpired_fails (s := s.deadlineTaken (.entry i)) h]
  · rw [hdue.answer, Station.answerExpired_releasing (s := s.deadlineTaken (.entry i)) h hk]
  · rw [hdue.hold, Station.holdExpired_holding (s := s.deadlineTaken (.entry i)) h]
    rfl
  · rw [hdue.orphanHold, Station.orphanExpired_abortCommit (s := s.deadlineTaken (.entry i)) h]
    rfl
  · rw [hdue.orphanHold, Station.orphanExpired_other (s := s.deadlineTaken (.entry i)) ho h]
    rfl
  · have hsettled : ∃ u, t = ⟨u, q⟩ ∧ u.settled = s.settled := by
      obtain h | h := exec_row_eq hrow s q
      · cases ht.symm.trans h
        exact ⟨s, rfl, rfl⟩
      · cases ht.symm.trans h
        exact ⟨_, rfl, Station.settled_takeDeadline hr⟩
    obtain ⟨u, rfl, hu⟩ := hsettled
    exact ⟨fun c hc => exec_congr_settled hu.symm hc q, step_congr_settled hu.symm⟩
  · subst hi
    exact exec_congr_settled (Station.settled_entry_passed hr hp) hc q

end Sys2Proof.Machine
end

section
namespace Sys2Proof.Machine

/-! ### The outcome told to a frame's producer (R72, R144, R160) -/

/-- The type codes of answers lie below those of requests. -/
theorem AnswerBody.onLine_code_lt (a : AnswerBody) : a.onLine.1 < 4 := by
  unfold AnswerBody.onLine
  split <;> exact Nat.lt_of_sub_eq_succ rfl

theorem RequestKind.le_typeCode (kind : RequestKind) : 4 ≤ kind.typeCode := by
  cases kind <;> decide

/-- A frame's kind of request is the one of its type code. -/
theorem FrameBody.requestKind_eq_some_iff {b : FrameBody} {kind : RequestKind} :
    b.requestKind = some kind ↔ b.onLine.1 = kind.typeCode := by
  cases b with
  | answer a =>
    refine iff_of_false (by simp [FrameBody.requestKind]) fun h => ?_
    exact absurd (kind.le_typeCode.trans_eq h.symm) (Nat.not_le.2 a.onLine_code_lt)
  | commit | drop | release | ask | beacon =>
    cases kind <;> simp [FrameBody.requestKind, FrameBody.onLine, RequestKind.typeCode]

theorem tagIndex_eq (tag : Tag) : tagIndex tag = Fin.ofNat 256 tag.toNat := by
  refine Fin.ext ?_
  simp [tagIndex]

theorem tagRound_toNat (tag : Tag) : (tagRound tag).toNat = tag.toNat / 256 := by
  have ht := tag.isLt
  rw [tagRound, BitVec.extractLsb'_toNat, Nat.shiftRight_eq_div_pow]
  omega

theorem Entry.acknowledged_eq (kind : RequestKind) (now : Tick) (e : Entry) : e.acknowledged kind now =
    { e with
      request := some (kind, .acked)
      ackedOnce := true
      deadline := match kind, e.state with
        | .ask, .asking | .commit, .committing | .release, .releasing => some (.answer, now + 6)
        | _, _ => e.deadline } := by
  unfold Entry.acknowledged Entry.awaits
  cases kind <;> cases e.state <;> rfl

/-- The frame names the entry's SENT request (R72): a live entry, of the tag's round, its request SENT and of that kind. -/
theorem Station.takeOutcome_eq {kind : RequestKind} {tag : Tag} {ok : Bool} {s : Station} :
    let i : EntryIndex := Fin.ofNat 256 tag.toNat
    let e := s.entry i
    s.takeOutcome kind tag ok =
      if e.state ≠ .free ∧ e.round.toNat = tag.toNat / 256 ∧ e.request = some (kind, .sent) then
        if ok then s.setEntry i (e.acknowledged kind s.clock.now) else s.sendFailed kind i
      else s := by
  dsimp only
  unfold Station.takeOutcome
  rw [tagIndex_eq]
  refine if_congr ?_ rfl rfl
  simp only [Bool.and_eq_true, Entry.live, bne_iff_ne, beq_iff_eq, and_assoc, ← BitVec.toNat_inj, tagRound_toNat, ne_eq]

theorem Station.sendFailed_eq (kind : RequestKind) (i : EntryIndex) (s : Station) : s.sendFailed kind i =
    match kind with
    | .ask | .commit => s.exchangeFailed i
    | .release => s.releaseGivenUp .undelivered i
    | .drop => s := by
  cases kind with
  | ask | commit => exact s.attemptFailed_eq i
  | release => exact s.giveUp_eq .undelivered i
  | drop => rfl

section Exchange
variable {x : TxFrame} (hp : x.producer = .exchange) (ok : Bool) (s : Station)
include hp

/-- The exchange unit ignores the outcome of a frame that is not the entry's SENT request. -/
theorem Station.tellOutcome_ignored (hn : ∀ kind, x.frame.body.requestKind = some kind →
    (s.entry (Fin.ofNat 256 x.frame.tag.toNat)).request ≠ some (kind, .sent)) : s.tellOutcome x ok = s := by
  unfold Station.tellOutcome
  rw [hp]
  dsimp only
  cases hk : x.frame.body.requestKind with
  | none => rfl
  | some kind => exact Station.takeOutcome_eq.trans (if_neg fun hc => hn kind hk hc.2.2)

/-- It is told that of the entry's SENT request. -/
theorem Station.tellOutcome_request {kind : RequestKind} (hk : x.frame.body.requestKind = some kind) :
    s.tellOutcome x ok = s.takeOutcome kind x.frame.tag ok := by
  unfold Station.tellOutcome
  rw [hp]
  dsimp only
  rw [hk]

theorem Station.tellOutcome_exchange : s.tellOutcome x ok = s.outcomeTold x ok := by
  unfold Station.outcomeTold
  rw [hp]
  dsimp only
  split
  · rename_i kind hr
    by_cases hcode : x.frame.body.onLine.1 = kind.typeCode
    · rw [Station.tellOutcome_request hp ok s (FrameBody.requestKind_eq_some_iff.2 hcode), Station.takeOutcome_eq]
      refine if_congr (by simp only [hr, hcode]) ?_ rfl
      rw [Entry.acknowledged_eq, Station.sendFailed_eq]
      cases ok <;> cases kind <;> rfl
    · rw [if_neg fun hc => hcode hc.2.2]
      refine Station.tellOutcome_ignored hp ok s fun kind' hk' hr' => hcode ?_
      obtain rfl : kind = kind' := congrArg Prod.fst (Option.some.inj (hr.symm.trans hr'))
      exact FrameBody.requestKind_eq_some_iff.1 hk'
  · rename_i hr
    exact Station.tellOutcome_ignored hp ok s fun kind _ h => hr kind h

end Exchange

/-- The model's telling of an outcome is that of the statements. -/
theorem Station.tellOutcome_eq (x : TxFrame) (ok : Bool) (s : Station) : s.tellOutcome x ok = s.outcomeTold x ok := by
  cases hp : x.producer with
  | exchange => exact Station.tellOutcome_exchange hp ok s
  | index =>
    unfold Station.tellOutcome Station.outcomeTold
    rw [hp]
  | roster =>
    unfold Station.tellOutcome Station.outcomeTold Roster.beaconOutcome
    rw [hp]
    dsimp only
    cases x.frame.body with
    | beacon fresh size => cases fresh <;> cases ok <;> simp
    | answer | commit | drop | release | ask => simp

/-! ### The end of an attempt (R141, R142, R144, R150) -/

/-- At cell `k` a recessive level was sent and a dominant one read. -/
def Clash (sent levels : List Bool) (k : Nat) : Prop := sent[k]? = some true ∧ levels[k]? = some false

theorem mismatch_cons (b l : Bool) (sent levels : List Bool) : mismatch (b :: sent) (l :: levels) =
    if b = true ∧ l = false then some 0 else (mismatch sent levels).map (· + 1) := by
  cases b <;> cases l <;> rfl

theorem mismatch_eq_none {sent levels : List Bool} (h : ∀ k, ¬Clash sent levels k) : mismatch sent levels = none := by
  induction sent generalizing levels with
  | nil => rfl
  | cons b sent ih =>
    cases levels with
    | nil => cases b <;> rfl
    | cons l levels =>
      have h0 : ¬(b = true ∧ l = false) := by simpa [Clash] using h 0
      rw [mismatch_cons, if_neg h0, ih fun k hk => h (k + 1) (by simpa [Clash] using hk)]
      rfl

/-- The first clash is where the model stops the attempt. -/
theorem mismatch_eq_some {sent levels : List Bool} {k : Nat} (h : Clash sent levels k)
    (hfirst : ∀ j, j < k → ¬Clash sent levels j) : mismatch sent levels = some k := by
  induction sent generalizing levels k with
  | nil => simp [Clash] at h
  | cons b sent ih =>
    cases levels with
    | nil => simp [Clash] at h
    | cons l levels =>
      rw [mismatch_cons]
      cases k with
      | zero => exact if_pos (by simpa [Clash] using h)
      | succ k =>
        have h0 : ¬(b = true ∧ l = false) := by simpa [Clash] using hfirst 0 (Nat.succ_pos k)
        rw [if_neg h0, ih (k := k) (by simpa [Clash] using h)
          fun j hj hc => hfirst (j + 1) (Nat.succ_lt_succ hj) (by simpa [Clash] using hc)]
        rfl

/-- The bus once an attempt is over (R142): the yield state is set, and `sent` holds the cells driven. -/
def Station.attemptOver (sent : List Bool) (s : Station) : Station :=
  { s with bus := { s.bus with yield := true, sentCells := sent } }

section Line
variable {s : Station} {xs ys : List TxFrame} {x : TxFrame} (hq : s.bus.tx = xs ++ x :: ys)
  (hw : ∀ y ∈ xs ++ ys, y.mark = .waiting) (hx : x.mark ≠ .waiting)
include hq hw hx

/-- The one frame not waiting is the one on the line. -/
theorem Station.find_onLine : (s.bus.tx.find? fun f => f.mark != .waiting) = some x := by
  rw [hq, List.find?_append, List.find?_eq_none.2 fun y hy => by simp [hw y (List.mem_append_left _ hy)],
    Option.none_or, List.find?_cons_of_pos (p := fun f : TxFrame => f.mark != .waiting) (bne_iff_ne.2 hx)]

theorem Station.removeOnLine_eq : s.removeOnLine = { s with bus := { s.bus with tx := xs ++ ys } } := by
  have hxs : ∀ y ∈ xs, ¬(y.mark != .waiting) = true := fun y hy => by simp [hw y (List.mem_append_left _ hy)]
  rw [Station.removeOnLine, hq, List.eraseP_append_right _ hxs,
    List.eraseP_cons_of_pos (p := fun f : TxFrame => f.mark != .waiting) (bne_iff_ne.2 hx)]

theorem Station.retryOnLine_eq : s.retryOnLine = { s with bus := { s.bus with
    tx := xs ++ { x with attempts := x.attempts + 1, mark := .waiting } :: ys } } := by
  have hkeep (zs : List TxFrame) (hz : ∀ y ∈ zs, y.mark = .waiting) :
      (zs.map fun f => if f.mark = .waiting then f else { f with attempts := f.attempts + 1, mark := .waiting }) = zs :=
    (List.map_congr_left fun y hy => if_pos (hz y hy)).trans (List.map_id' zs)
  rw [Station.retryOnLine, hq, List.map_append, List.map_cons, if_neg hx,
    hkeep xs fun y hy => hw y (List.mem_append_left _ hy), hkeep ys fun y hy => hw y (List.mem_append_right _ hy)]

theorem Station.endAttempt_complete :
    s.endAttempt x true = (Station.counted 0 { s with bus := { s.bus with tx := xs ++ ys } }).outcomeTold x true := by
  rw [← Station.tellOutcome_eq, ← Station.removeOnLine_eq hq hw hx]
  rfl

theorem Station.endAttempt_purged (hm : x.mark = .onLinePurged) :
    s.endAttempt x false = { s with bus := { s.bus with tx := xs ++ ys } } := by
  rw [← Station.removeOnLine_eq hq hw hx]
  exact if_pos hm

theorem Station.endAttempt_again (hm : x.mark = .onLine) (ha : x.attempts < 3) : s.endAttempt x false =
    { s with bus := { s.bus with tx := xs ++ { x with attempts := x.attempts + 1, mark := .waiting } :: ys } } := by
  have hnot : x.mark ≠ .onLinePurged := by rw [hm]; decide
  rw [← Station.retryOnLine_eq hq hw hx, Station.endAttempt, if_neg Bool.false_ne_true, if_neg hnot, if_pos ha]

theorem Station.endAttempt_failed (hm : x.mark = .onLine) (ha : 3 ≤ x.attempts) : s.endAttempt x false =
    (Station.counted 4 { s with bus := { s.bus with tx := xs ++ ys } }).outcomeTold x false := by
  have hnot : x.mark ≠ .onLinePurged := by rw [hm]; decide
  rw [← Station.tellOutcome_eq, ← Station.removeOnLine_eq hq hw hx, Station.endAttempt, if_neg Bool.false_ne_true,
    if_neg hnot, if_neg (Nat.not_lt.2 ha)]
  rfl

section Levels
variable (hacted : s.DeadlinesActed) (q : List Instr) {levels : List Bool} {ack : Bool}
include hacted

/-- Without a clash the attempt runs to its acknowledge cell. -/
theorem exec_attemptEnd_whole (h : ∀ k, ¬Clash (x.frame.cells.drop 6) levels k) : exec (.attemptEnd levels ack) ⟨s, q⟩ =
    .next ⟨(s.attemptOver s.bus.sentCells).endAttempt x (ack || x.frame.dest == 15), q⟩ := by
  simp only [exec, execAttemptEnd, runEvent_eq, Station.settled_of_acted hacted, Station.find_onLine hq hw hx,
    mismatch_eq_none h]
  rfl

/-- At its first clash the attempt is aborted. -/
theorem exec_attemptEnd_aborted {k : Nat} (h : Clash (x.frame.cells.drop 6) levels k)
    (hfirst : ∀ j, j < k → ¬Clash (x.frame.cells.drop 6) levels j) : exec (.attemptEnd levels ack) ⟨s, q⟩ =
      .next ⟨(s.attemptOver (x.frame.cells.take (k + 7))).endAttempt x false, q⟩ := by
  simp only [exec, execAttemptEnd, runEvent_eq, Station.settled_of_acted hacted, Station.find_onLine hq hw hx,
    mismatch_eq_some h hfirst]
  rfl

/-- How the attempt ends, and the cells that it drove. -/
theorem exec_attemptEnd_eq {ok : Bool} {sent : List Bool}
    (h : (∀ k, ¬Clash (x.frame.cells.drop 6) levels k) ∧ sent = s.bus.sentCells ∧
        (ok = true ↔ ack = true ∨ x.frame.dest = 15) ∨
      ok = false ∧ ∃ k, Clash (x.frame.cells.drop 6) levels k ∧
        (∀ j, j < k → ¬Clash (x.frame.cells.drop 6) levels j) ∧ sent = x.frame.cells.take (k + 7)) :
    exec (.attemptEnd levels ack) ⟨s, q⟩ =
      .next ⟨(s.attemptOver sent).endAttempt x ok, q⟩ := by
  obtain ⟨hno, rfl, hok⟩ | ⟨rfl, k, hk, hfirst, rfl⟩ := h
  · have hok' : ok = (ack || x.frame.dest == 15) := by
      rw [Bool.eq_iff_iff, hok, Bool.or_eq_true, beq_iff_eq]
    rw [exec_attemptEnd_whole hq hw hx hacted q hno, hok']
  · exact exec_attemptEnd_aborted hq hw hx hacted q hk hfirst

end Levels

end Line

/-- Settles O52. -/
theorem attemptsEndByRule : Obligations.AttemptsEndByRule := by
  intro s ha q levels ack xs ys x hq hw hx ok sent bad hlevels
  have hbad (k : Nat) : bad k ↔ Clash (x.frame.cells.drop 6) levels k := by
    rw [Clash, List.getElem?_drop]
  have hend := exec_attemptEnd_eq hq hw hx ha q (hlevels.imp
    (fun ⟨hno, hsent⟩ => ⟨fun k hk => hno k ((hbad k).2 hk), hsent⟩)
    fun ⟨hok, k, hk, hfirst, hsent⟩ =>
      ⟨hok, k, (hbad k).1 hk, fun j hj hc => hfirst j hj ((hbad j).2 hc), hsent⟩)
  refine ⟨fun hok => ?_, fun hok hm => ?_, fun hok hm hlt => ?_, fun hok hm hle => ?_⟩
  · rw [hok, Station.endAttempt_complete (s := s.attemptOver sent) hq hw hx] at hend
    exact hend
  · rw [hok, Station.endAttempt_purged (s := s.attemptOver sent) hq hw hx hm] at hend
    exact hend
  · rw [hok, Station.endAttempt_again (s := s.attemptOver sent) hq hw hx hm hlt] at hend
    exact hend
  · rw [hok, Station.endAttempt_failed (s := s.attemptOver sent) hq hw hx hm hle] at hend
    exact hend

end Sys2Proof.Machine
end

section
namespace Sys2Proof.Machine

/-! ### The rolling hash (R97, R98) -/

/-- One byte by the formula of the model is one byte by the formula of R98. -/
theorem Context.feed_eq_after (c : Context) (b : Byte) : c.feed b = c.after b := by
  have hout : (if c.history.length = 48 then (c.history.headD 0).toNat else 0) = c.outByte.toNat := by
    unfold Context.outByte Config.historyMax
    split <;> rfl
  unfold Context.feed Context.after
  rw [hout]
  congr 1
  · simp only [Int.sub_eq_add_neg, BitVec.ofInt_add, BitVec.ofInt_neg, BitVec.ofInt_mul, BitVec.ofInt_natCast,
      BitVec.ofNat_toNat, BitVec.setWidth_eq, BitVec.sub_eq_add_neg]
    rfl
  · unfold Config.historyMax
    split <;> simp

/-- R98's polynomial of the bytes in the hash window, for all the bytes taken, newest first. -/
def windowPolynomial (newestFirst : List Byte) : Nat :=
  Nat.ofDigits 15133 ((newestFirst.take 48).map BitVec.toNat)

theorem zipIdx_foldl_eq_ofDigits (x : Nat) (bytes : List Byte) (k acc : Nat) :
    (bytes.zipIdx k).foldl (fun sum y => sum + y.1.toNat * x ^ y.2) acc =
      acc + x ^ k * Nat.ofDigits x (bytes.map BitVec.toNat) := by
  induction bytes generalizing k acc with
  | nil => simp
  | cons b bytes ih =>
    rw [List.zipIdx_cons, List.foldl_cons, ih, List.map_cons, Nat.ofDigits_cons]
    push_cast
    ring

/-- A byte enters with power 0 and moves the others up by one power; the 48th newest leaves. -/
theorem windowPolynomial_cons (b : Byte) (bytes : List Byte) :
    windowPolynomial (b :: bytes) + (bytes[47]?.getD 0).toNat * 15133 ^ 48 =
      windowPolynomial bytes * 15133 + b.toNat := by
  have htake : Nat.ofDigits 15133 ((bytes.take 48).map BitVec.toNat) =
      Nat.ofDigits 15133 ((bytes.take 47).map BitVec.toNat) + 15133 ^ 47 * (bytes[47]?.getD 0).toNat := by
    by_cases h : 47 < bytes.length
    · rw [List.take_succ_eq_append_getElem h, List.map_append, Nat.ofDigits_append]
      simp [h, Nat.min_eq_left h.le]
    · rw [List.take_of_length_le (by omega), List.take_of_length_le (by omega), List.getElem?_eq_none (by omega)]
      simp
  unfold windowPolynomial
  rw [htake, List.take_succ_cons, List.map_cons, Nat.ofDigits_cons]
  push_cast
  ring

/-- The byte that leaves the hash window is the 48th newest (R98). -/
theorem outgoing_of_history (bytes : List Byte) :
    (if (bytes.drop (bytes.length - 48)).length = 48 then ((bytes.drop (bytes.length - 48)).headD 0).toNat else 0) =
      (bytes.reverse[47]?.getD 0).toNat := by
  rw [List.length_drop]
  by_cases h : 48 ≤ bytes.length
  · rw [if_pos (by omega), List.getElem?_reverse (by omega), List.headD_eq_head?_getD, List.head?_drop]
    congr 3
  · rw [if_neg (by omega), List.getElem?_eq_none (by simp; omega)]
    rfl

/-- The history of R97: the last 48 bytes. -/
theorem history_append (bytes : List Byte) (b : Byte) :
    (bytes.drop (bytes.length - 48)).drop (if (bytes.drop (bytes.length - 48)).length = 48 then 1 else 0) ++ [b] =
      (bytes ++ [b]).drop ((bytes ++ [b]).length - 48) := by
  rw [List.length_drop, List.drop_drop, List.length_append, List.length_singleton,
    List.drop_append_of_le_length (by omega)]
  congr 2
  split <;> omega

/-- R98's formula advances the polynomial of the last 48 bytes. -/
theorem hash_after_eq (b : Byte) (bytes : List Byte) :
    BitVec.ofInt 32 ((BitVec.ofNat 32 (windowPolynomial bytes)).toNat * 15133 + b.toNat -
      (bytes[47]?.getD 0).toNat * 15133 ^ 48) = BitVec.ofNat 32 (windowPolynomial (b :: bytes)) := by
  have hsum : (windowPolynomial (b :: bytes) : Int) =
      windowPolynomial bytes * 15133 + b.toNat - (bytes[47]?.getD 0).toNat * 15133 ^ 48 :=
    eq_sub_of_add_eq (by exact_mod_cast windowPolynomial_cons b bytes)
  rw [← BitVec.ofInt_natCast 32 (windowPolynomial (b :: bytes)), hsum]
  simp only [Int.sub_eq_add_neg, BitVec.ofInt_add, BitVec.ofInt_neg, BitVec.ofInt_mul, BitVec.ofInt_natCast,
    BitVec.ofNat_toNat, BitVec.setWidth_eq]

/-- A fresh context after any bytes (R97, R98). -/
theorem foldl_after_fresh (bytes : List Byte) : bytes.foldl Context.after ⟨0, 0, [], []⟩ =
    ⟨BitVec.ofNat 32 (windowPolynomial bytes.reverse), bytes.length, bytes.drop (bytes.length - 48), bytes.reverse⟩ := by
  induction bytes using List.reverseRecOn with
  | nil => rfl
  | append_singleton bytes b ih =>
    rw [List.foldl_append, ih, List.foldl_cons, List.foldl_nil, Context.after]
    dsimp only
    rw [outgoing_of_history, hash_after_eq, history_append, List.reverse_append, List.length_append]
    rfl

/-- Settles O56. -/
theorem hashIsOfTheLast48Bytes : Obligations.HashIsOfTheLast48Bytes := by
  refine ⟨Context.feed_eq_after, fun bytes => ?_⟩
  dsimp only
  rw [foldl_after_fresh, zipIdx_foldl_eq_ofDigits, pow_zero, one_mul, zero_add]
  exact ⟨rfl, rfl, rfl, rfl⟩

end Sys2Proof.Machine
end

section
namespace Sys2Proof.Machine

/-! ### Bursts: the lane in turn and the read requests (R100 to R102, R179) -/

/-- The current descriptor of a lane (R102). -/
theorem Lane.currentDescriptor_eq_some {x : Lane} {d : Descriptor} : x.currentDescriptor = some d ↔
    ∃ a b, x.segments = a ++ d :: b ∧ (∀ z ∈ a, z.length ≤ z.consumed) ∧ d.consumed < d.length := by
  unfold Lane.currentDescriptor
  rw [List.find?_eq_some_iff_append]
  simp only [decide_eq_true_eq, Bool.not_eq_true', decide_eq_false_iff_not, Nat.not_lt]
  constructor
  · rintro ⟨hd, a, b, hs, ha⟩
    exact ⟨a, b, hs, ha, hd⟩
  · rintro ⟨a, b, hs, ha, hd⟩
    exact ⟨hd, a, b, hs, ha⟩

theorem Lane.currentDescriptor_eq_none {x : Lane} :
    x.currentDescriptor = none ↔ ∀ d ∈ x.segments, d.length ≤ d.consumed := by
  simp [Lane.currentDescriptor]

theorem Lane.windowReady_iff {x : Lane} :
    x.windowReady = true ↔ (∃ y ∈ x.window, y.state = .filling) ∨ x.window.length < 64 := by
  unfold Lane.windowReady Lane.filling
  rw [Bool.or_eq_true, decide_eq_true_eq, List.find?_isSome]
  simp only [beq_iff_eq]
  rfl

/-- A lane may have a burst for `d` where it is eligible and `d` is its current descriptor (R100). -/
theorem Lane.mayFetch_iff {x : Lane} {d : Descriptor} :
    x.MayFetch d ↔ x.eligible = true ∧ x.currentDescriptor = some d := by
  unfold Lane.MayFetch Lane.eligible
  rw [← Lane.currentDescriptor_eq_some, ← Lane.windowReady_iff]
  simp only [Bool.and_eq_true, bne_iff_ne]
  constructor
  · rintro ⟨hs, hd, hw⟩
    exact ⟨⟨⟨hs, by rw [hd]; rfl⟩, hw⟩, hd⟩
  · rintro ⟨⟨⟨hs, -⟩, hw⟩, hd⟩
    exact ⟨hs, hd, hw⟩

theorem Lane.not_eligible {x : Lane} (h : ∀ d, ¬x.MayFetch d) : x.eligible = false := by
  cases hd : x.currentDescriptor with
  | none => simp [Lane.eligible, hd]
  | some d => exact Bool.eq_false_iff.2 fun he => h d (Lane.mayFetch_iff.2 ⟨he, hd⟩)

theorem Station.chosenLane_eq_none {s : Station} (h : ∀ l d, ¬(s.laneAt l).MayFetch d) : s.chosenLane = none :=
  ringFind_eq_none.2 fun l => Lane.not_eligible (h l)

/-- The first lane in turn that may have a burst is the arbiter's choice (R101). -/
theorem Station.chosenLane_eq_some {s : Station} {l : LaneNo} {d : Descriptor} (hl : (s.laneAt l).MayFetch d)
    (hfirst : ∀ k : LaneNo, (k - s.chunker.pointer).val < (l - s.chunker.pointer).val →
      ∀ d', ¬(s.laneAt k).MayFetch d') : s.chosenLane = some l := by
  refine ringFind_eq_some.2 ⟨(Lane.mayFetch_iff.1 hl).1, fun k hk => Lane.not_eligible (hfirst _ ?_)⟩
  rwa [add_sub_cancel_left]

/-- The model's requests are a split as R179 rules it. -/
theorem splitBurst_splitFor (fuel id : Nat) (address : BitVec 64) (offset remaining : Nat) (h : remaining ≤ fuel) :
    SplitFor id address offset remaining (splitBurst fuel id address offset remaining) := by
  induction fuel generalizing id address offset remaining with
  | zero =>
    obtain rfl := Nat.le_zero.1 h
    exact .done id address offset
  | succ fuel ih =>
    unfold splitBurst
    split
    next h0 =>
      subst h0
      exact .done id address offset
    next h0 =>
      have hmod : address.toNat % 4096 < 4096 := Nat.mod_lt _ (by decide)
      exact .next id address offset remaining _ _ (by omega) (by omega) (by omega) (by omega)
        (ih _ _ _ _ (by omega))

theorem fetchRejects_iff {enable : Bool} {start n : Nat} :
    fetchRejects enable start n = true ↔ enable = false ∨ 2 ^ 64 < start + n := by
  simp [fetchRejects]

/-- The bytes of the next burst for a descriptor: A/4, or what is left of it (R102). -/
def burstLength (s : Station) (d : Descriptor) : Nat :=
  min (2048 * 2 ^ s.control.straps.averageChunk.toNat / 4) (d.length - d.consumed)

section Issue
variable {s : Station} (ha : s.DeadlinesActed) (q : List Instr) (enable : Bool)
include ha

/-- BURST_ISSUE with a burst in flight, or with no lane that may have one. -/
theorem exec_burstIssue_idle (h : s.chunker.burst ≠ none ∨ ∀ l d, ¬(s.laneAt l).MayFetch d) :
    exec (.burstIssue enable) ⟨s, q⟩ = .next ⟨{ s with fetch := { s.fetch with busMaster := enable } }, q⟩ := by
  simp only [exec, execBurstIssue, runEvent_eq, Station.settled_of_acted ha]
  cases hb : s.chunker.burst with
  | some b => rfl
  | none =>
    have hn : ({ s with fetch.busMaster := enable } : Station).chosenLane = none :=
      Station.chosenLane_eq_none (h.resolve_left (not_not_intro hb))
    rw [hn]
    rfl

/-- BURST_ISSUE for the lane in turn. -/
theorem exec_burstIssue_issues {l : LaneNo} {d : Descriptor} (hb : s.chunker.burst = none)
    (hl : (s.laneAt l).MayFetch d) (hfirst : ∀ k : LaneNo,
      (k - s.chunker.pointer).val < (l - s.chunker.pointer).val → ∀ d', ¬(s.laneAt k).MayFetch d') :
    exec (.burstIssue enable) ⟨s, q⟩ = .next ⟨({ s with
        fetch.busMaster := enable
        chunker.burst := some ⟨l, d.seq, burstLength s d, false⟩
        chunker.pointer := l + 1 } : Station).startFetch (d.address.toNat + d.consumed) (burstLength s d), q⟩ := by
  have hc : ({ s with fetch.busMaster := enable } : Station).chosenLane = some l := Station.chosenLane_eq_some hl hfirst
  have hd : (({ s with fetch.busMaster := enable } : Station).laneAt l).currentDescriptor = some d :=
    (Lane.mayFetch_iff.1 hl).2
  simp only [exec, execBurstIssue, runEvent_eq, Station.settled_of_acted ha, hb]
  rw [hc]
  dsimp only
  rw [hd]
  rfl

end Issue

theorem Station.startFetch_rejected {s : Station} {start n : Nat} (h : s.fetch.busMaster = false ∨ 2 ^ 64 < start + n) :
    s.startFetch start n = { s with fetch.burst := some ⟨BitVec.ofNat 64 start, n, true, []⟩ } :=
  if_pos (fetchRejects_iff.2 h)

theorem Station.startFetch_requests {s : Station} {start n : Nat} (he : s.fetch.busMaster = true)
    (hn : start + n ≤ 2 ^ 64) : s.startFetch start n =
      { s with
        fetch.burst := some ⟨BitVec.ofNat 64 start, n, false,
          splitBurst n s.fetch.nextRequest (BitVec.ofNat 64 start) 0 n⟩
        fetch.nextRequest := s.fetch.nextRequest +
          (splitBurst n s.fetch.nextRequest (BitVec.ofNat 64 start) 0 n).length } := by
  refine if_neg (mt fetchRejects_iff.1 ?_)
  rw [he]
  rintro (h | h)
  · cases h
  · omega

/-- Settles O57. -/
theorem burstsIssuedRoundRobin : Obligations.BurstsIssuedRoundRobin := by
  intro s ha q enable
  refine ⟨fun hb => exec_burstIssue_idle ha q enable (.inl hb),
    fun hl => exec_burstIssue_idle ha q enable (.inr hl), fun l d hb hl hfirst => ?_⟩
  have hissue := exec_burstIssue_issues ha q enable hb hl hfirst
  refine ⟨fun hrej => ?_, fun he hn => ?_⟩
  · rw [Station.startFetch_rejected hrej] at hissue
    exact hissue
  · rw [Station.startFetch_requests] at hissue
    · subst he
      exact ⟨_, splitBurst_splitFor _ _ _ _ _ le_rfl, hissue⟩
    · exact he
    · exact hn

end Sys2Proof.Machine
end

section
namespace Sys2Proof.Machine

/-! ### The abort of a lane (R89, R105, R110, R130, R131) -/

/-- "Never handed on" is a request still PENDING at attempt 1 (R84). -/
theorem Entry.neverHandedOn_iff {e : Entry} :
    e.neverHandedOn = true ↔ ∃ kind, e.request = some (kind, .pending) ∧ e.attempts = 1 := by
  unfold Entry.neverHandedOn
  split
  next kind hr => simp [hr]
  next hr => simpa using fun kind hk => absurd hk (hr kind)

/-- Table 4.7: what the model makes of an entry bound to a slot of an aborted lane. -/
theorem Entry.abortBound_eq (now : Tick) (e : Entry) : e.abortBound now = e.afterAbort now := by
  have hsent (h : ∀ kind, e.request = some (kind, .pending) → e.attempts = 1 → False) : ¬e.neverHandedOn = true :=
    fun hn => by
      obtain ⟨kind, hr, ha⟩ := Entry.neverHandedOn_iff.1 hn
      exact h kind hr ha
  unfold Entry.afterAbort
  split
  case h_1 kind hs hr ha | h_5 kind hs hr ha =>
    unfold Entry.abortBound
    rw [hs]
    exact if_pos (Entry.neverHandedOn_iff.2 ⟨kind, hr, ha⟩)
  case h_2 hs h | h_6 hs h =>
    unfold Entry.abortBound
    rw [hs]
    exact if_neg (hsent h)
  case h_3 hs | h_4 hs | h_7 hs =>
    simp only [Entry.abortBound, hs]
    rfl
  all_goals
    next hs => simp only [Entry.abortBound, hs]

/-- An entry that an abort changes is bound to no slot any more. -/
theorem Entry.afterAbort_binding (now : Tick) (e : Entry) :
    (e.afterAbort now).binding = none ∨ e.afterAbort now = e := by
  unfold Entry.afterAbort
  split
  all_goals simp [Entry.orphanOf, Entry.dropping, Entry.owing, Entry.compensationFor]

theorem Station.boundEntry_eq_some {s : Station} {l : LaneNo} {seq : Word} {i : EntryIndex} :
    s.boundEntry ⟨l, seq⟩ = some i ↔ s.BoundAt l seq i := by
  unfold Station.boundEntry Station.BoundAt
  rw [lowestFind_eq_some]
  simp only [beq_iff_eq, beq_eq_false_iff_ne, Fin.lt_def]

/-- The abort of a slot changes the entry bound to it, as Table 4.7 gives, and no other. -/
theorem Station.entry_abortSlot (l : LaneNo) (s : Station) (seq : Word) (i : EntryIndex) :
    (s.abortSlot l seq).entry i =
      if s.boundEntry ⟨l, seq⟩ = some i then (s.entry i).afterAbort s.clock.now else s.entry i := by
  unfold Station.abortSlot
  cases s.boundEntry ⟨l, seq⟩ with
  | none => simp
  | some j =>
    dsimp only
    rw [Entry.abortBound_eq, Station.entry_setEntry]
    by_cases h : j = i
    · subst h
      simp
    · simp [h]

/-- The abort of slots changes nothing but entries. -/
theorem Station.abortSlots_eq (l : LaneNo) (seqs : List Word) (s : Station) :
    ∃ entries, seqs.foldl (Station.abortSlot l) s = { s with exchange.entries := entries } := by
  induction seqs generalizing s with
  | nil => exact ⟨s.exchange.entries, rfl⟩
  | cons seq seqs ih =>
    rw [List.foldl_cons]
    obtain ⟨entries, h⟩ := ih (s.abortSlot l seq)
    refine ⟨entries, h.trans ?_⟩
    unfold Station.abortSlot
    split <;> rfl

section Slots
variable {l : LaneNo} {seqs : List Word} {s : Station} {i : EntryIndex}

theorem Station.abortSlot_now (seq : Word) : (s.abortSlot l seq).clock.now = s.clock.now := by simp

/-- An entry that an abort does not change stays as it is. -/
theorem Station.entry_abortSlots_fixed (h : (s.entry i).afterAbort s.clock.now = s.entry i) :
    (seqs.foldl (Station.abortSlot l) s).entry i = s.entry i := by
  induction seqs generalizing s with
  | nil => rfl
  | cons seq seqs ih =>
    have hi : (s.abortSlot l seq).entry i = s.entry i := by rw [Station.entry_abortSlot, h, ite_self]
    rw [List.foldl_cons, ih (by rw [hi, Station.abortSlot_now, h]), hi]

/-- An entry bound to none of the slots stays as it is. -/
theorem Station.entry_abortSlots_unbound (h : ∀ seq ∈ seqs, (s.entry i).binding ≠ some ⟨l, seq⟩) :
    (seqs.foldl (Station.abortSlot l) s).entry i = s.entry i := by
  induction seqs generalizing s with
  | nil => rfl
  | cons seq seqs ih =>
    have hi : (s.abortSlot l seq).entry i = s.entry i := by
      rw [Station.entry_abortSlot, if_neg fun hb => h seq List.mem_cons_self (Station.boundEntry_eq_some.1 hb).1]
    rw [List.foldl_cons, ih fun seq' hq => by rw [hi]; exact h seq' (List.mem_cons_of_mem _ hq), hi]

/-- An abort binds no entry. -/
theorem Station.abortSlot_unbound {seq : Word} {b : Option Binding} (hb : b ≠ none) (h : (s.entry i).binding ≠ b) :
    ((s.abortSlot l seq).entry i).binding ≠ b := by
  rw [Station.entry_abortSlot]
  split
  · rcases (s.entry i).afterAbort_binding s.clock.now with hn | he
    · rw [hn]
      exact hb.symm
    · rwa [he]
  · exact h

/-- The entry bound to one of the slots is left as Table 4.7 gives. -/
theorem Station.entry_abortSlots_bound {seq : Word} (hq : seq ∈ seqs) (h : s.BoundAt l seq i) :
    (seqs.foldl (Station.abortSlot l) s).entry i = (s.entry i).afterAbort s.clock.now := by
  induction seqs generalizing s with
  | nil => cases hq
  | cons seq' seqs ih =>
    rw [List.foldl_cons]
    by_cases hseq : seq' = seq
    · subst hseq
      have hi : (s.abortSlot l seq').entry i = (s.entry i).afterAbort s.clock.now := by
        rw [Station.entry_abortSlot, if_pos (Station.boundEntry_eq_some.2 h)]
      rcases (s.entry i).afterAbort_binding s.clock.now with hn | he
      · rw [Station.entry_abortSlots_unbound fun seq _ => by rw [hi, hn]; exact nofun, hi]
      · rw [Station.entry_abortSlots_fixed (by rw [hi, Station.abortSlot_now, he, he]), hi]
    · obtain ⟨hb, hfirst⟩ := h
      have hi : (s.abortSlot l seq').entry i = s.entry i := by
        refine (Station.entry_abortSlot ..).trans (if_neg fun hs => hseq ?_)
        have hb' := (Station.boundEntry_eq_some.1 hs).1
        rw [hb] at hb'
        cases hb'
        rfl
      have hbound : (s.abortSlot l seq').BoundAt l seq i :=
        ⟨by rw [hi]; exact hb, fun j hj => Station.abortSlot_unbound nofun (hfirst j hj)⟩
      rw [ih ((List.mem_cons.1 hq).resolve_left (Ne.symm hseq)) hbound, hi, Station.abortSlot_now]

end Slots

/-- Table 6.8: the report that a slot leaves. -/
theorem Lane.abortReport_eq (l : LaneNo) (x : Lane) (y : Slot) : x.abortReport l y = Slot.leavesReport l x.pool y := by
  unfold Lane.abortReport Slot.leavesReport
  cases y.state with
  | resolved kind => cases kind <;> rfl
  | _ => rfl

theorem Lane.releasePoint_eq (x : Lane) : x.releasePoint = x.pointOfRelease := by
  unfold Lane.releasePoint Lane.pointOfRelease
  cases x.window <;> rfl

/-- The record of an aborted lane (R130, R131). -/
theorem Lane.aborted_eq (l : LaneNo) (reason : AbortReason) (x : Lane) : x.aborted l reason = { x with
    state := .free
    segments := []
    window := []
    openedOwed := false
    abortList := x.window.filterMap (Slot.leavesReport l x.pool) ++
      [.aborted l x.record.stream reason
        (match x.window with
          | y :: _ => y.seq - 1
          | [] => x.record.nextRecipe - 1)
        x.pointOfRelease] } := by
  unfold Lane.aborted Lane.buildAbortList Lane.lastReported
  rw [Lane.releasePoint_eq, funext (Lane.abortReport_eq l x)]
  cases x.window <;> rfl

theorem laneNo_bne_eq_decide (k l : LaneNo) : (k != l) = decide (k ≠ l) := by
  rw [Bool.eq_iff_iff]
  simp

/-- The abort of a lane changes entries, the tag wait queue, the chunker and the lane. -/
theorem Station.abortLane_eq (s : Station) (l : LaneNo) (reason : AbortReason) :
    ∃ entries, s.abortLane l reason = { s with
      exchange.entries := entries
      exchange.waitQueue := s.exchange.waitQueue.filter fun r => !r.ofLane l
      chunker := s.chunker.abortLane l
      lane.lanes := s.lane.lanes.set l ((s.laneAt l).aborted l reason) } := by
  obtain ⟨entries, h⟩ : ∃ entries, s.abortExchange l = { s with
      exchange.entries := entries
      exchange.waitQueue := s.exchange.waitQueue.filter fun r => !r.ofLane l } := Station.abortSlots_eq _ _ _
  refine ⟨entries, ?_⟩
  unfold Station.abortLane
  rw [h]
  rfl

/-- What the abort of a lane makes of the station. -/
theorem Station.abortLane_laneAborted (s : Station) (l : LaneNo) (reason : AbortReason) :
    s.LaneAborted (s.abortLane l reason) l reason := by
  obtain ⟨entries, h⟩ := s.abortLane_eq l reason
  constructor
  case lane =>
    rw [h]
    exact congrArg (fun x => ({ s.lane with lanes := s.lane.lanes.set l x } : LaneUnit)) (Lane.aborted_eq ..)
  case chunker =>
    have hdigests : s.chunker.digests.filter (fun d => d.lane != l) =
        s.chunker.digests.filter fun d => decide (d.lane ≠ l) :=
      List.filter_congr fun d _ => laneNo_bne_eq_decide d.lane l
    rw [h, ← hdigests]
    rfl
  case waitQueue =>
    rw [h]
    refine List.filter_congr fun r _ => ?_
    cases r with
    | lookup k => exact laneNo_bne_eq_decide k l
    | hostRelease => rfl
  case bound =>
    intro y hy i hi
    exact Station.entry_abortSlots_bound (List.mem_map_of_mem hy) hi
  case unbound =>
    intro i hi
    refine Station.entry_abortSlots_unbound fun seq hq => ?_
    obtain ⟨y, hy, rfl⟩ := List.mem_map.1 hq
    exact hi y hy
  case exchange => rw [h]
  case rest => rw [h]

end Sys2Proof.Machine
end

section
namespace Sys2Proof.Machine

/-! ### The bytes of a burst (R99, R103 to R107) -/

/-- The cut condition of R99. -/
theorem Context.cuts_iff {c : Context} {k : BitVec 2} : c.cuts (Config.averageChunk k) = true ↔ c.CutFalls k := by
  unfold Context.cuts Context.CutFalls Config.averageChunk Config.minChunk Config.maxChunk
  simp only [Bool.or_eq_true, Bool.and_eq_true, decide_eq_true_eq, beq_iff_eq]

/-- The bytes are consumed up to the first cut, or to their end (R103). -/
theorem consume_eq {a n : Nat} {c : Context} {bytes : List Byte} (h1 : 1 ≤ n) (hn : n ≤ bytes.length)
    (hfirst : ∀ k, 1 ≤ k → k < n → ((bytes.take k).foldl Context.after c).cuts a = false)
    (hlast : ((bytes.take n).foldl Context.after c).cuts a = true ∨ n = bytes.length) :
    consume a c bytes =
      ((bytes.take n).foldl Context.after c, n, ((bytes.take n).foldl Context.after c).cuts a) := by
  induction bytes generalizing c n with
  | nil => exact absurd (h1.trans hn) (by decide)
  | cons b rest ih =>
    obtain ⟨m, rfl⟩ : ∃ m, n = m + 1 := ⟨n - 1, by omega⟩
    unfold consume
    rw [Context.feed_eq_after]
    simp only [List.take_succ_cons, List.foldl_cons, List.length_cons, Nat.add_right_cancel_iff] at hn hlast ⊢
    rcases Nat.eq_zero_or_pos m with rfl | hm
    · rw [List.take_zero, List.foldl_nil] at hlast ⊢
      cases hc : (c.after b).cuts a with
      | true => rfl
      | false =>
        have hrest : rest = [] := List.eq_nil_of_length_eq_zero ((hlast.resolve_left (by rw [hc]; decide)).symm)
        rw [hrest]
        rfl
    · have hb : (c.after b).cuts a = false := hfirst 1 le_rfl (by omega)
      rw [hb, ih hm (by omega) (fun k hk hkm => hfirst (k + 1) (by omega) (by omega)) hlast]
      rfl

/-- A map that changes one element of a list. -/
theorem map_ite_of_unique {α : Type} {p : α → Prop} [DecidablePred p] (f : α → α) {a b : List α} {x : α}
    (hab : ∀ z ∈ a ++ b, ¬p z) (hx : p x) :
    (a ++ x :: b).map (fun z => if p z then f z else z) = a ++ f x :: b := by
  have hsame : ∀ zs : List α, (∀ z ∈ zs, ¬p z) → (zs.map fun z => if p z then f z else z) = zs := fun zs h =>
    (List.map_congr_left fun z hz => if_neg (h z hz)).trans (List.map_id' zs)
  rw [List.map_append, List.map_cons, if_pos hx, hsame a fun z hz => hab z (List.mem_append_left b hz),
    hsame b fun z hz => hab z (List.mem_append_right a hz)]

section Lane
variable {x x' : Lane} {seq : Word} {n : Nat} {w : List Slot} {y : Slot}

theorem Lane.filling_eq_none (h : ∀ v ∈ x.window, v.state ≠ .filling) : x.filling = none :=
  List.find?_eq_none.2 fun v hv => by simpa using h v hv

theorem Lane.filling_eq_some (hw : x.window = w ++ [y]) (h : ∀ v ∈ w, v.state ≠ .filling) (hy : y.state = .filling) :
    x.filling = some y := by
  unfold Lane.filling
  rw [hw, List.find?_append, List.find?_eq_none.2 fun v hv => by simpa using h v hv]
  simp [hy]

/-- The window's last slot is the FILLING one once bytes have been consumed. -/
theorem Lane.Consumes.window (h : x.Consumes seq n w y x') :
    x'.window = w ++ [y] ∧ (∀ v ∈ w, v.state ≠ .filling) ∧ y.state = .filling := by
  cases h with
  | grows w z a d b hw hfirst hz => exact ⟨rfl, hfirst, hz⟩
  | opens a d b hfirst => exact ⟨rfl, hfirst, rfl⟩

/-- A map over the FILLING slots of a window that has one, at its end. -/
theorem map_filling_last (f : Slot → Slot) (h : ∀ v ∈ w, v.state ≠ .filling) (hy : y.state = .filling) :
    (w ++ [y]).map (fun v => if v.state = .filling then f v else v) = w ++ [f y] :=
  map_ite_of_unique (p := fun v : Slot => v.state = .filling) f (by simpa using h) hy

/-- The lane's record after `n` bytes (R103, R116). -/
theorem Lane.Consumes.lane_eq (h : x.Consumes seq n w y x') : x.ensureFilling.consumeBytes seq n = x' := by
  cases h with
  | grows w z a d b hw hfirst hz hs hd hab =>
    have hready : x.ensureFilling = x := if_pos (by rw [Lane.filling_eq_some hw hfirst hz]; rfl)
    rw [hready, Lane.consumeBytes, hw, hs, map_filling_last _ hfirst hz, map_ite_of_unique _ hab hd]
  | opens a d b hfirst hs hd hab =>
    have hready : x.ensureFilling = x.openSlot := if_neg (by rw [Lane.filling_eq_none hfirst]; decide)
    rw [hready, Lane.consumeBytes, Lane.openSlot]
    dsimp only
    rw [hs, map_filling_last _ hfirst rfl, map_ite_of_unique _ hab hd, Nat.zero_add]

theorem Lane.cutSlot_eq (hw : x.window = w ++ [y]) (h : ∀ v ∈ w, v.state ≠ .filling) (hy : y.state = .filling) :
    x.cutSlot = { x with window := w ++ [y.cutToDigesting] } := by
  unfold Lane.cutSlot
  rw [hw, map_filling_last _ h hy]
  rfl

theorem Lane.draining_iff : x.draining = true ↔ x.state = .closing ∨ x.state = .suspending := by
  simp [Lane.draining]

end Lane

/-! #### Cuts (R99, R106, R107) -/

/-- A draining lane whose queued bytes are all consumed (R106). -/
def Lane.Drained (x : Lane) : Prop :=
  (x.state = .closing ∨ x.state = .suspending) ∧ ∀ d ∈ x.segments, d.length ≤ d.consumed

theorem Lane.drained_iff {x : Lane} : x.Drained ↔ (x.draining && x.currentDescriptor.isNone) = true := by
  rw [Bool.and_eq_true, Lane.draining_iff, Option.isNone_iff_eq_none, Lane.currentDescriptor_eq_none]
  rfl

@[simp] theorem Station.laneAt_withLane (l : LaneNo) (x : Lane) (s : Station) : (s.withLane l x).laneAt l = x := by
  simp [Station.withLane, Station.laneAt]

theorem Station.withLane_withLane (l : LaneNo) (x x' : Lane) (s : Station) :
    (s.withLane l x).withLane l x' = s.withLane l x' :=
  congrArg (fun v => { s with lane.lanes := v }) (Vector.set_set ..)

theorem Station.setContext_withCut (l : LaneNo) (seq : Word) (c c' : Context) (s : Station) :
    (s.setContext l c').withCut l seq c = s.withCut l seq c :=
  congrArg (fun v => ({ s with
    chunker.contexts := v
    chunker.digests := s.chunker.digests ++ [⟨l, seq, c.n, c.absorbed⟩] } : Station)) (Vector.set_set ..)

section Cut
variable {s : Station} {l : LaneNo}

/-- The cut of a lane's FILLING slot (R99). -/
theorem Station.cutLane_eq {w : List Slot} {y : Slot} (hw : (s.laneAt l).window = w ++ [y])
    (h : ∀ v ∈ w, v.state ≠ .filling) (hy : y.state = .filling) : s.cutLane l =
      (s.withLane l { s.laneAt l with window := w ++ [y.cutToDigesting] }).withCut l y.seq (s.context l) := by
  unfold Station.cutLane
  rw [Lane.filling_eq_some hw h hy, ← Lane.cutSlot_eq hw h hy]
  rfl

/-- Where no slot is FILLING nothing is cut (R107). -/
theorem Station.cutLane_eq_self (h : ∀ v ∈ (s.laneAt l).window, v.state ≠ .filling) : s.cutLane l = s := by
  unfold Station.cutLane
  rw [Lane.filling_eq_none h]

/-- The final cut of a drained lane, with no burst in flight (R106). -/
theorem Station.finalCut_drained (hb : s.chunker.burst = none) (h : (s.laneAt l).Drained) :
    s.finalCut l = s.cutLane l :=
  if_pos (by rw [Lane.drained_iff.1 h, Station.burstFor, hb]; rfl)

theorem Station.finalCut_not_drained (h : ¬(s.laneAt l).Drained) : s.finalCut l = s :=
  if_neg (by rw [Bool.and_eq_true]; exact fun hd => h (Lane.drained_iff.2 hd.1))

theorem Station.finalCut_eq_self (h : ∀ v ∈ (s.laneAt l).window, v.state ≠ .filling) : s.finalCut l = s := by
  unfold Station.finalCut
  rw [Station.cutLane_eq_self h, ite_self]

end Cut

/-! #### The completion of a burst (R179, Table 5.2) -/

section Completion
variable {f : Fetch}

theorem Fetch.ended_iff : f.ended = true ↔ f.rejected = true ∨ ∀ r ∈ f.requests, r.result ≠ none := by
  unfold Fetch.ended
  rw [Bool.or_eq_true, List.all_eq_true]
  simp only [Option.isSome_iff_ne_none]

/-- The bytes of a burst whose requests all ended good. -/
theorem Fetch.completion_eq_some {bytes : List Byte} (hr : f.rejected = false)
    (hgood : ∀ r ∈ f.requests, r.result = some .good) (hbytes : f.requests.flatMap (·.data) = bytes.map some) :
    f.completion = some bytes := by
  have hall : f.requests.all (fun r => r.result == some .good) = true :=
    List.all_eq_true.2 fun r hm => beq_iff_eq.2 (hgood r hm)
  have hdata : (f.requests.flatMap fun r => r.data.map fun x => x.getD 0) = bytes := by
    rw [← List.map_flatMap, hbytes, List.map_map]
    exact List.map_id' bytes
  unfold Fetch.completion
  rw [hr, hall, hdata]
  rfl

/-- The completion of a burst that did not end good is an error. -/
theorem Fetch.completion_eq_none (h : f.rejected = true ∨ ∃ r ∈ f.requests, r.result ≠ some .good) :
    f.completion = none := by
  refine if_neg fun hgood => ?_
  rw [Bool.and_eq_true, Bool.not_eq_true', List.all_eq_true] at hgood
  obtain ⟨hr, hall⟩ := hgood
  rcases h with h | ⟨r, hm, hbad⟩
  · rw [h] at hr
    cases hr
  · exact hbad (beq_iff_eq.1 (hall r hm))

variable {s : Station} (ha : s.DeadlinesActed) (q : List Instr) {b : Burst} (hb : s.chunker.burst = some b)
  (hf : s.fetch.burst = some f)
include ha hb hf

theorem exec_burstCompletion_eq :
    exec .burstCompletion ⟨s, q⟩ = .next ⟨if f.ended = true then s.completeBurst b f else s, q⟩ := by
  simp only [exec, execBurstCompletion, runEvent_eq, Station.settled_of_acted ha, hb, hf]

/-- A burst that has ended is taken (R103). -/
theorem exec_burstCompletion_ended (h : f.rejected = true ∨ ∀ r ∈ f.requests, r.result ≠ none) :
    exec .burstCompletion ⟨s, q⟩ = .next ⟨s.completeBurst b f, q⟩ := by
  rw [exec_burstCompletion_eq ha q hb hf, if_pos (Fetch.ended_iff.2 h)]

end Completion

section Complete
variable {s : Station} {b : Burst} {f : Fetch}

/-- A void burst, or one for a FREE lane, is discarded. -/
theorem Station.completeBurst_discarded (h : b.void = true ∨ (s.laneAt b.lane).state = .free) :
    s.completeBurst b f = s.burstTaken :=
  if_pos (by rwa [Bool.or_eq_true, beq_iff_eq])

section Taken
variable (hv : b.void = false) (hs : (s.laneAt b.lane).state ≠ .free)
include hv hs

theorem Station.burst_not_discarded : ¬(b.void || (s.laneAt b.lane).state == .free) = true := by
  rw [hv, Bool.false_or, beq_iff_eq]
  exact hs

theorem Station.completeBurst_aborted (hf : f.completion = none) :
    s.completeBurst b f = s.burstTaken.abortLane b.lane .fetchError := by
  unfold Station.completeBurst
  rw [hf]
  exact if_neg (Station.burst_not_discarded hv hs)

theorem Station.completeBurst_consumed {bytes : List Byte} (hf : f.completion = some bytes) :
    s.completeBurst b f = (s.burstTaken.consumeBurst b bytes).finalCut b.lane := by
  unfold Station.completeBurst
  rw [hf]
  exact if_neg (Station.burst_not_discarded hv hs)

end Taken

variable {bytes : List Byte} {n : Nat} {w : List Slot} {y : Slot} {x : Lane}

/-- The lane's context after `n` of the bytes. -/
def Station.contextAfter (s : Station) (l : LaneNo) (bytes : List Byte) (n : Nat) : Context :=
  (bytes.take n).foldl Context.after s.chunker.contexts[l]

/-- The bytes are consumed up to byte `n`, where the first cut falls or they end. -/
structure Station.ConsumesTo (s : Station) (b : Burst) (bytes : List Byte) (n : Nat) : Prop where
  pos : 1 ≤ n
  le : n ≤ bytes.length
  first : ∀ k, 1 ≤ k → k < n → ¬(s.contextAfter b.lane bytes k).CutFalls s.control.straps.averageChunk
  last : (s.contextAfter b.lane bytes n).CutFalls s.control.straps.averageChunk ∨ n = bytes.length

theorem Station.ConsumesTo.consume_eq (h : s.ConsumesTo b bytes n) :
    consume s.averageChunk (s.context b.lane) bytes =
      (s.contextAfter b.lane bytes n, n, (s.contextAfter b.lane bytes n).cuts s.averageChunk) :=
  Machine.consume_eq h.pos h.le
    (fun k h1 hk => Bool.eq_false_iff.2 (mt Context.cuts_iff.1 (h.first k h1 hk)))
    (h.last.imp_left Context.cuts_iff.2)

/-- The bytes of a burst consumed for a lane, with the cut that may fall (R103). -/
theorem Station.consumeBurst_eq (h : s.ConsumesTo b bytes n) (hx : (s.laneAt b.lane).Consumes b.segment n w y x) :
    s.consumeBurst b bytes =
      if (s.contextAfter b.lane bytes n).cuts s.averageChunk = true then
        ((s.withLane b.lane x).setContext b.lane (s.contextAfter b.lane bytes n)).cutLane b.lane
      else (s.withLane b.lane x).setContext b.lane (s.contextAfter b.lane bytes n) := by
  have hne : bytes.isEmpty = false := by
    cases hbytes : bytes with
    | nil => exact absurd (h.pos.trans h.le) (by rw [hbytes]; decide)
    | cons b rest => rfl
  have hlane : (s.mapLane b.lane fun l => if bytes.isEmpty then l else l.ensureFilling.consumeBytes b.segment n) =
      s.withLane b.lane x := by
    rw [← hx.lane_eq, hne]
    rfl
  unfold Station.consumeBurst
  rw [h.consume_eq]
  dsimp only
  rw [hlane]

/-- The cut of the chunk whose bytes have just been consumed. -/
theorem Station.cutLane_consumed (hx : (s.laneAt b.lane).Consumes b.segment n w y x) (c : Context) :
    ((s.withLane b.lane x).setContext b.lane c).cutLane b.lane =
      (s.withLane b.lane { x with window := w ++ [y.cutToDigesting] }).withCut b.lane y.seq c := by
  obtain ⟨hw, hfirst, hy⟩ := hx.window
  have hlane : ((s.withLane b.lane x).setContext b.lane c).laneAt b.lane = x := Station.laneAt_withLane ..
  have hset (z : Lane) : ((s.withLane b.lane x).setContext b.lane c).withLane b.lane z =
      (s.withLane b.lane z).setContext b.lane c :=
    congrArg (Station.setContext b.lane c) (Station.withLane_withLane b.lane x z s)
  rw [Station.cutLane_eq (by rw [hlane]; exact hw) hfirst hy, hlane, Station.context_setContext, if_pos rfl, hset,
    Station.setContext_withCut]

variable (h : s.ConsumesTo b bytes n) (hx : (s.laneAt b.lane).Consumes b.segment n w y x)
include h hx

/-- At a cut, or once a draining lane's queued bytes are all consumed, the chunk is cut. -/
theorem Station.consumed_cut (hb : s.chunker.burst = none)
    (hcut : (s.contextAfter b.lane bytes n).CutFalls s.control.straps.averageChunk ∨ x.Drained) :
    (s.consumeBurst b bytes).finalCut b.lane =
      (s.withLane b.lane { x with window := w ++ [y.cutToDigesting] }).withCut b.lane y.seq
        (s.contextAfter b.lane bytes n) := by
  rw [Station.consumeBurst_eq h hx, Station.cutLane_consumed hx]
  split
  next =>
    refine Station.finalCut_eq_self fun v hv => ?_
    have hlane : ((s.withLane b.lane { x with window := w ++ [y.cutToDigesting] }).withCut b.lane y.seq
        (s.contextAfter b.lane bytes n)).laneAt b.lane = { x with window := w ++ [y.cutToDigesting] } :=
      Station.laneAt_withLane ..
    obtain ⟨-, hfirst, -⟩ := hx.window
    rw [hlane] at hv
    rcases List.mem_append.1 hv with hv | hv
    · exact hfirst v hv
    · rw [List.mem_singleton.1 hv]
      exact nofun
  next hno =>
    have hdrained := hcut.resolve_left (mt Context.cuts_iff.2 hno)
    have hlane : ((s.withLane b.lane x).setContext b.lane (s.contextAfter b.lane bytes n)).laneAt b.lane = x :=
      Station.laneAt_withLane ..
    rw [Station.finalCut_drained (by exact hb) (by rwa [hlane]), Station.cutLane_consumed hx]

/-- Otherwise the context keeps what it consumed. -/
theorem Station.consumed_kept (hcut : ¬(s.contextAfter b.lane bytes n).CutFalls s.control.straps.averageChunk)
    (hopen : ¬x.Drained) : (s.consumeBurst b bytes).finalCut b.lane =
      (s.withLane b.lane x).setContext b.lane (s.contextAfter b.lane bytes n) := by
  have hlane : ((s.withLane b.lane x).setContext b.lane (s.contextAfter b.lane bytes n)).laneAt b.lane = x :=
    Station.laneAt_withLane ..
  have hno : ¬(s.contextAfter b.lane bytes n).cuts s.averageChunk = true := mt Context.cuts_iff.1 hcut
  rw [Station.consumeBurst_eq h hx, if_neg hno, Station.finalCut_not_drained (by rwa [hlane])]

end Complete

/-- Settles O59. -/
theorem burstBytesConsumedUpToTheCut : Obligations.BurstBytesConsumedUpToTheCut := by
  intro s ha q b f hb hf
  have htaken := exec_burstCompletion_ended ha q hb hf
  refine ⟨fun ⟨hr, r, hm, hnone⟩ => ?_, fun hended hdisc => ?_, fun hbad hv hs => ?_,
    fun bytes n w y x hr hgood hv hs hbytes h1 hn hx hfirst => ?_⟩
  · have hended : ¬f.ended = true := fun h => (Fetch.ended_iff.1 h).elim (fun h => by rw [hr] at h; cases h)
      fun h => h r hm hnone
    rw [exec_burstCompletion_eq ha q hb hf, if_neg hended]
  · rw [htaken hended, Station.completeBurst_discarded hdisc]
  · refine ⟨_, htaken (hbad.imp_right And.left), ?_⟩
    rw [Station.completeBurst_aborted hv hs (Fetch.completion_eq_none (hbad.imp_right And.right))]
    exact Station.abortLane_laneAborted _ _ _
  · have hended : ∀ r ∈ f.requests, r.result ≠ none := fun r hm => by rw [hgood r hm]; exact nofun
    rw [htaken (.inr hended),
      Station.completeBurst_consumed hv hs (Fetch.completion_eq_some hr hgood hbytes)]
    have hto (hlast : (s.contextAfter b.lane bytes n).CutFalls s.control.straps.averageChunk ∨ n = bytes.length) :
        s.burstTaken.ConsumesTo b bytes n := ⟨h1, hn, hfirst, hlast⟩
    refine ⟨fun hcut => ?_, fun hno hlen hopen => ?_⟩
    · have hlast := hcut.imp_right fun ⟨_, hlen, _⟩ => hlen
      have hcut := hcut.imp_right fun ⟨_, _, hdone⟩ => hdone
      rw [Station.consumed_cut (hto hlast) hx rfl hcut]
      rfl
    · rw [Station.consumed_kept (hto (.inr hlen)) hx hno hopen]
      rfl

end Sys2Proof.Machine
end

section
namespace Sys2Proof.Machine

/-! ### Recipe windows and segment queues in stream order (R113, R115) -/

/-- The numbers of a list that end just below `next` count up to it by one. -/
theorem numbered_iff {α : Type} {f : α → Word} {next : Word} {xs : List α} :
    (∀ (i : Nat) (x : α), xs[i]? = some x → f x = next - BitVec.ofNat 32 (xs.length - i)) ↔
      (xs.map f ++ [next]).IsChain fun m n => n = m + 1 := by
  induction xs with
  | nil => simp
  | cons x xs ih =>
    have hcons : (∀ (i : Nat) (y : α), (x :: xs)[i]? = some y → f y = next - BitVec.ofNat 32 ((x :: xs).length - i)) ↔
        (∀ (i : Nat) (y : α), xs[i]? = some y → f y = next - BitVec.ofNat 32 (xs.length - i)) ∧
          f x = next - BitVec.ofNat 32 (xs.length + 1) := by
      refine ⟨fun h => ⟨fun i y hy => ?_, h 0 x rfl⟩, fun ⟨h, h0⟩ i y hy => ?_⟩
      · simpa using h (i + 1) y hy
      · cases i with
        | zero => cases hy; exact h0
        | succ i => simpa using h i y hy
    rw [hcons, List.map_cons, List.cons_append, List.isChain_cons, and_comm, ← ih]
    refine and_congr_left fun h => ?_
    have hhead : (xs.map f ++ [next]).head? = some (next - BitVec.ofNat 32 xs.length) := by
      cases xs with
      | nil => simp
      | cons y ys => exact congrArg some (h 0 y rfl)
    have hlen : BitVec.ofNat 32 (xs.length + 1) = BitVec.ofNat 32 xs.length + 1 := BitVec.ofNat_add ..
    rw [hhead, hlen]
    constructor
    · rintro hx y ⟨⟩
      rw [hx, ← sub_sub, sub_add_cancel]
    · intro hy
      rw [← sub_sub, hy _ rfl, add_sub_cancel_right]

theorem isChain_iff_getElem? {α : Type} {R : α → α → Prop} {xs : List α} :
    xs.IsChain R ↔ ∀ (i : Nat) (x y : α), xs[i]? = some x → xs[i + 1]? = some y → R x y := by
  rw [List.isChain_iff_getElem]
  refine ⟨fun h i x y hx hy => ?_, fun h i hi => ?_⟩
  · obtain ⟨_, rfl⟩ := List.getElem?_eq_some_iff.1 hx
    obtain ⟨hi, rfl⟩ := List.getElem?_eq_some_iff.1 hy
    exact h i hi
  · exact h i _ _ (List.getElem?_eq_getElem (Nat.lt_of_succ_lt hi)) (List.getElem?_eq_getElem hi)

/-- What a slot covers of its stream: its number, where it begins and how long it is. -/
structure Span where
  seq : Word
  offset : Offset
  length : Nat

/-- A span that begins where another ends, under the next number. -/
def Span.Meets (a b : Span) : Prop := b.seq = a.seq + 1 ∧ b.offset = a.offset + BitVec.ofNat 48 a.length

/-- The span of a slot. -/
def Slot.span (x : Slot) : Span := ⟨x.seq, x.offset, x.length⟩

/-- The spans of a lane's slots, and the empty one at which its next slot begins. -/
def Lane.spans (l : Lane) : List Span := l.window.map Slot.span ++ [⟨l.record.nextRecipe, l.record.offset, 0⟩]

/-- A window is in stream order when the spans of its lane meet and only its last slot can be FILLING (R115). -/
theorem Lane.windowSound_iff {l : Lane} :
    l.WindowSound ↔ l.spans.IsChain Span.Meets ∧ ∀ x ∈ l.window.dropLast, x.state ≠ .filling := by
  have hseq : (l.window.map Slot.seq ++ [l.record.nextRecipe]).IsChain (fun m n => n = m + 1) ↔
      l.spans.IsChain fun a b => b.seq = a.seq + 1 := by
    rw [← List.isChain_map (R := fun m n : Word => n = m + 1) Span.seq, Lane.spans, List.map_append, List.map_map]
    rfl
  have hoffset : l.spans.IsChain (fun a b => b.offset = a.offset + BitVec.ofNat 48 a.length) ↔
      (∀ (i : Nat) (x y : Slot), l.window[i]? = some x → l.window[i + 1]? = some y →
        y.offset = x.offset + BitVec.ofNat 48 x.length) ∧
      ∀ x, l.window.getLast? = some x → l.record.offset = x.offset + BitVec.ofNat 48 x.length := by
    rw [Lane.spans, List.isChain_append, List.isChain_map, isChain_iff_getElem?]
    refine and_congr Iff.rfl ?_
    simp [Slot.span]
  have hfilling : (∀ x ∈ l.window.dropLast, x.state ≠ .filling) ↔
      ∀ (i : Nat) (x : Slot), l.window[i]? = some x → x.state = .filling → i + 1 = l.window.length := by
    refine ⟨fun h i x hx hf => ?_, fun h x hx hf => ?_⟩
    · by_contra hlast
      have hi : i < l.window.length := (List.getElem?_eq_some_iff.1 hx).1
      refine h x (List.mem_iff_getElem?.2 ⟨i, ?_⟩) hf
      rw [List.getElem?_dropLast, if_pos (by omega), hx]
    · obtain ⟨i, hi⟩ := List.mem_iff_getElem?.1 hx
      rw [List.getElem?_dropLast] at hi
      split at hi
      · have := h i x hi hf
        omega
      · cases hi
  have hmeets : l.spans.IsChain Span.Meets ↔ (l.spans.IsChain fun a b => b.seq = a.seq + 1) ∧
      l.spans.IsChain (fun a b => b.offset = a.offset + BitVec.ofNat 48 a.length) := by
    simp only [List.isChain_iff_getElem, Span.Meets, forall_and]
  rw [hfilling, hmeets, ← hseq, ← numbered_iff, hoffset]
  exact ⟨fun ⟨h1, h2, h3, h4⟩ => ⟨⟨h1, h2, h3⟩, h4⟩, fun ⟨⟨h1, h2, h3⟩, h4⟩ => ⟨h1, h2, h3, h4⟩⟩

/-- A segment queue is in stream order when its numbers count up to the lane's next one, each descriptor ends its length
past the one before it, and every length is one that SEGMENT takes (R113). -/
theorem Lane.queueSound_iff {l : Lane} :
    l.QueueSound ↔ (l.segments.map Descriptor.seq ++ [l.record.nextSegment]).IsChain (fun m n => n = m + 1) ∧
      l.segments.IsChain (fun d e => e.endOffset = d.endOffset + BitVec.ofNat 48 e.length) ∧
      ∀ d ∈ l.segments, 1 ≤ d.length ∧ d.length ≤ 1048576 := by
  rw [← numbered_iff, isChain_iff_getElem?]
  exact ⟨fun ⟨h1, h2, h3⟩ => ⟨h1, h2, h3⟩, fun ⟨h1, h2, h3⟩ => ⟨h1, h2, h3⟩⟩

/-! ### What may become of a window -/

/-- A slot move: what the slot covers stays, and the slot does not come to be FILLING. -/
structure SlotMove (f : Slot → Slot) : Prop where
  span : ∀ x, (f x).span = x.span
  filling : ∀ x, (f x).state = .filling → x.state = .filling

theorem slotMove_enter {state : SlotState} (h : state ≠ .filling) : SlotMove (Slot.enter state) :=
  ⟨fun _ => rfl, fun _ hf => absurd hf h⟩

theorem slotMove_toStoring (unindexed : Option Reason) : SlotMove (Slot.toStoring unindexed) :=
  ⟨fun _ => rfl, nofun⟩

theorem slotMove_resolve (kind : Kind) (locator : Locator) : SlotMove (Slot.resolve kind locator) :=
  ⟨fun _ => rfl, nofun⟩

theorem slotMove_storeReported : SlotMove Slot.storeReported := by
  refine ⟨fun x => ?_, fun x => ?_⟩ <;> unfold Slot.storeReported <;> split
  · rfl
  · rfl
  · exact nofun
  · exact id

/-- A move of some of the slots. -/
theorem SlotMove.ite {f : Slot → Slot} (h : SlotMove f) (p : Slot → Prop) [DecidablePred p] :
    SlotMove fun x => if p x then f x else x := by
  refine ⟨fun x => ?_, fun x => ?_⟩ <;> split
  · exact h.span x
  · rfl
  · exact h.filling x
  · exact id

namespace Lane.WindowSound
variable {l l' : Lane}

theorem of_nil (h : l.window = []) : l.WindowSound := by
  rw [Lane.windowSound_iff, Lane.spans, h]
  exact ⟨.singleton _, nofun⟩

/-- The slots moved, and what comes next in the stream as it was. -/
theorem moved (h : l.WindowSound) {f : Slot → Slot} (hf : SlotMove f) (hw : l'.window = l.window.map f)
    (hr : l'.record.nextRecipe = l.record.nextRecipe ∧ l'.record.offset = l.record.offset) : l'.WindowSound := by
  obtain ⟨hmeet, hfill⟩ := Lane.windowSound_iff.1 h
  have hspans : l'.spans = l.spans := by
    rw [Lane.spans, hw, hr.1, hr.2, List.map_map, show Slot.span ∘ f = Slot.span from funext hf.span]
    rfl
  refine Lane.windowSound_iff.2 ⟨hspans ▸ hmeet, fun x hx => ?_⟩
  rw [hw, ← List.map_dropLast] at hx
  obtain ⟨y, hy, rfl⟩ := List.mem_map.1 hx
  exact fun hs => hfill y hy (hf.filling y hs)

theorem of_same (h : l.WindowSound) (hw : l'.window = l.window)
    (hr : l'.record.nextRecipe = l.record.nextRecipe ∧ l'.record.offset = l.record.offset) : l'.WindowSound :=
  h.moved (f := id) ⟨fun _ => rfl, fun _ => id⟩ (by rw [hw, List.map_id]) hr

/-- The head slot gone. -/
theorem tail (h : l.WindowSound) {x : Slot} (hw : l.window = x :: l'.window)
    (hr : l'.record.nextRecipe = l.record.nextRecipe ∧ l'.record.offset = l.record.offset) : l'.WindowSound := by
  obtain ⟨hmeet, hfill⟩ := Lane.windowSound_iff.1 h
  have hspans : l.spans = x.span :: l'.spans := by
    rw [Lane.spans, hw, ← hr.1, ← hr.2]
    rfl
  rw [hspans] at hmeet
  refine Lane.windowSound_iff.2 ⟨hmeet.of_cons, fun y hy => hfill y ?_⟩
  rw [hw, List.dropLast_cons_of_ne_nil (fun hnil => by rw [hnil] at hy; cases hy)]
  exact List.mem_cons_of_mem x hy

/-- The FILLING slot is the last one. -/
theorem filling_last (h : l.WindowSound) (hf : l.filling.isSome = true) :
    ∃ w y, l.window = w ++ [y] ∧ (∀ v ∈ w, v.state ≠ .filling) ∧ y.state = .filling := by
  obtain ⟨x, hx⟩ := Option.isSome_iff_exists.1 hf
  have hstate : x.state = .filling := by simpa using List.find?_some (p := fun x : Slot => x.state == .filling) hx
  have hmem : x ∈ l.window := List.mem_of_find?_eq_some hx
  have hne : l.window ≠ [] := List.ne_nil_of_mem hmem
  have hfill := (Lane.windowSound_iff.1 h).2
  refine ⟨l.window.dropLast, l.window.getLast hne, (List.dropLast_concat_getLast hne).symm, hfill, ?_⟩
  rw [← List.dropLast_concat_getLast hne] at hmem
  rcases List.mem_append.1 hmem with hm | hm
  · exact absurd hstate (hfill x hm)
  · rwa [← List.mem_singleton.1 hm]

/-- A slot opened where none is FILLING (R116). -/
theorem openSlot (h : l.WindowSound) (hf : l.filling = none) : l.openSlot.WindowSound := by
  have hmeet := (Lane.windowSound_iff.1 h).1
  have hspans : l.openSlot.spans = l.spans ++ [⟨l.record.nextRecipe + 1, l.record.offset, 0⟩] := by
    rw [Lane.spans, Lane.spans, Lane.openSlot, List.map_append]
    rfl
  refine Lane.windowSound_iff.2 ⟨?_, fun x hx => ?_⟩
  · rw [hspans, Lane.spans, List.append_assoc, List.cons_append, List.nil_append, List.isChain_append_cons_cons]
    exact ⟨hmeet, ⟨rfl, (BitVec.add_zero _).symm⟩, .singleton _⟩
  · rw [Lane.openSlot, List.dropLast_concat] at hx
    simpa using List.find?_eq_none.1 hf x hx

/-- Bytes consumed into the FILLING slot: it and the byte offset grow alike (R103). -/
theorem consumeBytes (h : l.WindowSound) (hf : l.filling.isSome = true) (seq : Word) (k : Nat) :
    (l.consumeBytes seq k).WindowSound := by
  obtain ⟨w, y, hw, hfirst, hy⟩ := h.filling_last hf
  have hmeet := (Lane.windowSound_iff.1 h).1
  have hw' : (l.consumeBytes seq k).window = w ++ [{ y with length := y.length + k }] := by
    rw [Lane.consumeBytes, hw]
    exact map_filling_last _ hfirst hy
  refine Lane.windowSound_iff.2 ⟨?_, ?_⟩
  · rw [Lane.spans, hw, List.map_append, List.append_assoc, List.map_singleton, List.singleton_append,
      List.isChain_append_cons_cons] at hmeet
    obtain ⟨hchain, ⟨hseq, hoffset⟩, -⟩ := hmeet
    rw [Lane.spans, hw', List.map_append, List.append_assoc, List.map_singleton, List.singleton_append,
      List.isChain_append_cons_cons]
    refine ⟨?_, ⟨hseq, ?_⟩, .singleton _⟩
    · rw [List.isChain_append] at hchain ⊢
      obtain ⟨hchain, -, hlast⟩ := hchain
      exact ⟨hchain, .singleton _, fun a ha b hb => by cases hb; exact hlast a ha y.span rfl⟩
    · change l.record.offset + BitVec.ofNat 48 k = y.offset + BitVec.ofNat 48 (y.length + k)
      rw [BitVec.ofNat_add, ← BitVec.add_assoc]
      exact congrArg (· + BitVec.ofNat 48 k) hoffset
  · rw [hw', List.dropLast_concat]
    exact hfirst

end Lane.WindowSound

/-! ### What may become of a segment queue -/

namespace Lane.QueueSound
variable {l l' : Lane}

theorem of_nil (h : l.segments = []) : l.QueueSound := by
  rw [Lane.queueSound_iff, h]
  exact ⟨.singleton _, .nil, nofun⟩

theorem of_same (h : l.QueueSound) (hs : l'.segments = l.segments)
    (hr : l'.record.nextSegment = l.record.nextSegment) : l'.QueueSound := by
  rw [Lane.queueSound_iff] at h ⊢
  rwa [hs, hr]

/-- The head descriptor gone. -/
theorem tail (h : l.QueueSound) {d : Descriptor} (hs : l.segments = d :: l'.segments)
    (hr : l'.record.nextSegment = l.record.nextSegment) : l'.QueueSound := by
  rw [Lane.queueSound_iff, hs] at h
  obtain ⟨hnum, hends, hlen⟩ := h
  rw [Lane.queueSound_iff, hr]
  exact ⟨List.IsChain.of_cons hnum, hends.of_cons, fun e he => hlen e (List.mem_cons_of_mem d he)⟩

/-- A descriptor joins the tail (R114). -/
theorem pushSegment (h : l.QueueSound) (address : BitVec 64) {length : Nat} (h1 : 1 ≤ length) (h2 : length ≤ 1048576) :
    (l.pushSegment address length).QueueSound := by
  rw [Lane.queueSound_iff] at h
  obtain ⟨hnum, hends, hlen⟩ := h
  rw [Lane.queueSound_iff]
  refine ⟨?_, ?_, fun d hd => ?_⟩
  · rw [Lane.pushSegment, List.map_append, List.append_assoc, List.map_singleton, List.singleton_append,
      List.isChain_append_cons_cons]
    exact ⟨hnum, rfl, .singleton _⟩
  · rw [Lane.pushSegment, List.isChain_append]
    refine ⟨hends, .singleton _, fun d hd e he => ?_⟩
    cases he
    dsimp only [Lane.nextEnd]
    rw [Option.mem_def.1 hd]
    rfl
  · rcases List.mem_append.1 hd with hd | hd
    · exact hlen d hd
    · rw [List.mem_singleton.1 hd]
      exact ⟨h1, h2⟩

/-- Bytes consumed from a descriptor: its number, its end and its length stay (R103). -/
theorem consumeBytes (h : l.QueueSound) (seq : Word) (k : Nat) : (l.consumeBytes seq k).QueueSound := by
  have hkeep (d : Descriptor) : (if d.seq = seq then { d with consumed := d.consumed + k } else d) =
      { d with consumed := if d.seq = seq then d.consumed + k else d.consumed } := by
    split <;> rfl
  rw [Lane.queueSound_iff] at h ⊢
  obtain ⟨hnum, hends, hlen⟩ := h
  rw [Lane.consumeBytes]
  simp only [hkeep]
  refine ⟨by rwa [List.map_map], by rwa [List.isChain_map], fun d hd => ?_⟩
  obtain ⟨e, he, rfl⟩ := List.mem_map.1 hd
  exact hlen e he

end Lane.QueueSound

end Sys2Proof.Machine
end

section
namespace Sys2Proof.Machine

/-! ### What may become of a lane (R113, R115, R118, R119, R131) -/

namespace Lane.Sound
variable {l : Lane}

/-- A lane with an empty window, queue and abort list, that owes OPENED only where it is not FREE. -/
theorem of_empty (hw : l.window = []) (hs : l.segments = []) (ha : l.abortList = [])
    (ho : l.openedOwed = true → l.state ≠ .free) : l.Sound where
  window := .of_nil hw
  queue := .of_nil hs
  abortFree := absurd ha
  abortEnds := by rw [ha]; exact nofun
  opened := ho

theorem moved (h : l.Sound) {f : Slot → Slot} (hf : SlotMove f) : ({ l with window := l.window.map f } : Lane).Sound :=
  { h with
    window := h.window.moved hf rfl ⟨rfl, rfl⟩
    queue := h.queue.of_same rfl rfl }

theorem mapSlot (h : l.Sound) (seq : Word) {f : Slot → Slot} (hf : SlotMove f) : (l.mapSlot seq f).Sound :=
  h.moved (hf.ite _)

theorem cutSlot (h : l.Sound) : l.cutSlot.Sound :=
  h.moved ((slotMove_enter (state := .digesting) nofun).ite fun x => x.state = .filling)

theorem ensureFilling (h : l.Sound) : l.ensureFilling.Sound := by
  unfold Lane.ensureFilling
  split
  · exact h
  · rename_i hf
    exact { h with
      window := h.window.openSlot (Option.not_isSome_iff_eq_none.1 hf)
      queue := h.queue.of_same rfl rfl }

theorem consumeBytes (h : l.Sound) (hf : l.filling.isSome = true) (seq : Word) (k : Nat) :
    (l.consumeBytes seq k).Sound :=
  { h with
    window := h.window.consumeBytes hf seq k
    queue := h.queue.consumeBytes seq k }

theorem pushSegment (h : l.Sound) (address : BitVec 64) {length : Nat} (h1 : 1 ≤ length) (h2 : length ≤ 1048576) :
    (l.pushSegment address length).Sound :=
  { h with
    window := h.window.of_same rfl ⟨rfl, rfl⟩
    queue := h.queue.pushSegment address h1 h2 }

theorem openedLane (record : ParkedRecord) (pool : Pool) : (Machine.openedLane record pool).Sound :=
  .of_empty rfl rfl rfl nofun

/-- The abort list of an abort ends with its ABORTED (R131). -/
theorem aborted (lane : LaneNo) (reason : AbortReason) (l : Lane) : (l.aborted lane reason).Sound where
  window := .of_nil rfl
  queue := .of_nil rfl
  abortFree _ := rfl
  abortEnds r hr := by
    rw [Lane.aborted, Lane.buildAbortList, List.getLast?_concat] at hr
    cases hr
    rfl
  opened := nofun

end Lane.Sound

theorem Lane.ensureFilling_filling (l : Lane) : l.ensureFilling.filling.isSome = true := by
  unfold Lane.ensureFilling
  split
  · assumption
  · simp [Lane.filling, Lane.openSlot]

/-! #### The duties of the lane's reports (R125) -/

/-- A lane's report is the oldest of its abort list, or, with that list empty and the lane not FREE, the first of the
other duties. -/
theorem Lane.duty_cases {n : LaneNo} {l : Lane} {d : Report × Lane} (h : l.duty n = some d) :
    l.dutyAbort = some d ∨ l.abortList = [] ∧ l.state ≠ .free ∧
      (l.dutyOpened n = some d ∨ l.openedOwed = false ∧
        (l.dutySegment n = some d ∨ l.dutyStore n = some d ∨ l.dutyRecipe n = some d ∨ l.dutyDrained n = some d)) := by
  unfold Lane.duty at h
  split at h
  next ha =>
    cases h
    exact .inl ha
  next ha =>
    have hlist : l.abortList = [] := by
      unfold Lane.dutyAbort at ha
      split at ha
      · cases ha
      · assumption
    split at h
    · cases h
    · have howed (ho : l.dutyOpened n = none) : l.openedOwed = false := by
        unfold Lane.dutyOpened at ho
        split at ho
        · cases ho
        · exact Bool.eq_false_iff.2 ‹_›
      simp only [Option.or_eq_some_iff] at h
      refine .inr ⟨hlist, ‹_›, h.imp_right fun ⟨ho, h⟩ => ⟨howed ho, ?_⟩⟩
      tauto

/-- The counters of R123 leave the lane's place in its stream. -/
theorem ParkedRecord.count_place (r : ParkedRecord) (kind : Kind) (length : Nat) :
    (r.count kind length).offset = r.offset ∧ (r.count kind length).nextRecipe = r.nextRecipe ∧
      (r.count kind length).nextSegment = r.nextSegment := by
  cases kind <;> exact ⟨rfl, rfl, rfl⟩

namespace Lane.Sound
variable {l : Lane} {n : LaneNo} {d : Report × Lane}

theorem dutyAbort (h : l.Sound) (hd : l.dutyAbort = some d) : d.2.Sound := by
  unfold Lane.dutyAbort at hd
  split at hd
  next r rest ha =>
    cases hd
    exact { h with
      window := h.window.of_same rfl ⟨rfl, rfl⟩
      queue := h.queue.of_same rfl rfl
      abortFree := fun _ => h.abortFree (by rw [ha]; exact nofun)
      abortEnds := fun r' hr => h.abortEnds r' (by rw [ha, List.getLast?_cons, hr]; rfl) }
  next => cases hd

theorem dutyOpened (h : l.Sound) (hd : l.dutyOpened n = some d) : d.2.Sound := by
  unfold Lane.dutyOpened at hd
  split at hd
  · cases hd
    exact { h with
      window := h.window.of_same rfl ⟨rfl, rfl⟩
      queue := h.queue.of_same rfl rfl
      opened := nofun }
  · cases hd

theorem dutySegment (h : l.Sound) (hd : l.dutySegment n = some d) : d.2.Sound := by
  unfold Lane.dutySegment at hd
  split at hd
  next hs =>
    split at hd
    · cases hd
      exact { h with
        window := h.window.of_same rfl ⟨rfl, rfl⟩
        queue := h.queue.tail hs rfl }
    · cases hd
  next => cases hd

theorem dutyStore (h : l.Sound) (hd : l.dutyStore n = some d) : d.2.Sound := by
  unfold Lane.dutyStore at hd
  split at hd
  · cases hd
    exact h.mapSlot _ slotMove_storeReported
  · cases hd

theorem dutyRecipe (h : l.Sound) (hd : l.dutyRecipe n = some d) : d.2.Sound := by
  unfold Lane.dutyRecipe at hd
  split at hd
  next x rest hw =>
    split at hd
    next kind hk =>
      cases hd
      obtain ⟨hoffset, hnext, hseg⟩ := l.record.count_place kind x.length
      exact { h with
        window := h.window.tail hw ⟨hnext, hoffset⟩
        queue := h.queue.of_same rfl hseg }
    next => cases hd
  next => cases hd

theorem dutyDrained (h : l.Sound) (ho : l.openedOwed = false) (hd : l.dutyDrained n = some d) : d.2.Sound := by
  have hfree : ({ l with state := .free } : Lane).Sound :=
    { h with
      window := h.window.of_same rfl ⟨rfl, rfl⟩
      queue := h.queue.of_same rfl rfl
      abortFree := fun _ => rfl
      opened := fun hopened => absurd (ho.symm.trans hopened) nofun }
  unfold Lane.dutyDrained at hd
  (repeat' split at hd) <;> cases hd <;> exact hfree

/-- A report of the lane unit leaves its lane sound. -/
theorem duty (h : l.Sound) (hd : l.duty n = some d) : d.2.Sound := by
  rcases Lane.duty_cases hd with hd | ⟨-, -, hd | ⟨ho, hd | hd | hd | hd⟩⟩
  · exact h.dutyAbort hd
  · exact h.dutyOpened hd
  · exact h.dutySegment hd
  · exact h.dutyStore hd
  · exact h.dutyRecipe hd
  · exact h.dutyDrained ho hd

end Lane.Sound

end Sys2Proof.Machine
end

section
namespace Sys2Proof.Machine

/-! ### The operations on entries and slots keep every lane sound -/

theorem Station.lanesSound_reset {s : Station} (h : s.lane = LaneUnit.reset) : s.LanesSound := fun l => by
  have : s.laneAt l = {} := by
    unfold Station.laneAt
    rw [h]
    exact Vector.getElem_replicate l.isLt
  rw [this]
  exact .of_empty rfl rfl rfl nofun

namespace Station.LanesSound
variable {s t : Station}

theorem of_lanes (h : s.LanesSound) (e : t.lane.lanes = s.lane.lanes := by simp) : t.LanesSound := fun l => by
  have : t.laneAt l = s.laneAt l := congrArg (·[l]) e
  rw [this]
  exact h l

theorem mapLane (h : s.LanesSound) {l : LaneNo} {f : Lane → Lane} (hf : (f (s.laneAt l)).Sound) :
    (s.mapLane l f).LanesSound := fun k => by
  rw [Station.laneAt_mapLane]
  split
  · subst k; exact hf
  · exact h k

theorem moveSlot (h : s.LanesSound) (b : Option Binding) {f : Slot → Slot} (hf : SlotMove f) :
    (s.moveSlot b f).LanesSound := by
  unfold Station.moveSlot
  split
  · exact h.mapLane ((h _).mapSlot _ hf)
  · exact h

theorem storeUnindexed (h : s.LanesSound) (r : Reason) (b : Option Binding) : (s.storeUnindexed r b).LanesSound :=
  (h.moveSlot b (slotMove_toStoring _)).of_lanes rfl

theorem setEntry (h : s.LanesSound) (i : EntryIndex) (e : Entry) : (s.setEntry i e).LanesSound := h.of_lanes

/-! Failed attempts. -/

theorem exhaust (h : s.LanesSound) (i : EntryIndex) : (s.exhaust i).LanesSound := by
  unfold Station.exhaust
  dsimp only
  split
  · exact (h.storeUnindexed _ _).setEntry i _
  · exact (h.moveSlot _ (slotMove_resolve _ _)).setEntry i _
  · exact h

theorem attemptFailed (h : s.LanesSound) (i : EntryIndex) : (s.attemptFailed i).LanesSound := by
  unfold Station.attemptFailed
  dsimp only
  split
  · exact h.setEntry i _
  · exact h.exhaust i

theorem giveUp (h : s.LanesSound) (o : ReleasedOutcome) (i : EntryIndex) : (s.giveUp o i).LanesSound := h.of_lanes

theorem sendFailed (h : s.LanesSound) (k : RequestKind) (i : EntryIndex) : (s.sendFailed k i).LanesSound := by
  cases k with
  | ask | commit => exact h.attemptFailed i
  | release => exact h.giveUp _ i
  | drop => exact h

theorem takeOutcome (h : s.LanesSound) (k : RequestKind) (g : Tag) (a : Bool) : (s.takeOutcome k g a).LanesSound := by
  unfold Station.takeOutcome
  dsimp only
  (repeat' split)
  · exact h.setEntry _ _
  · exact h.sendFailed _ _
  · exact h

theorem tellOutcome (h : s.LanesSound) (f : TxFrame) (a : Bool) : (s.tellOutcome f a).LanesSound := by
  unfold Station.tellOutcome
  (repeat' split)
  · exact h
  · exact h.takeOutcome _ _ _
  · exact h
  · exact h.of_lanes rfl

theorem endAttempt (h : s.LanesSound) (f : TxFrame) (a : Bool) : (s.endAttempt f a).LanesSound := by
  have hr (c : Counter) : (s.removeOnLine.bump c).LanesSound := h.of_lanes rfl
  unfold Station.endAttempt
  (repeat' split)
  · exact (hr _).tellOutcome f true
  · exact h.of_lanes rfl
  · exact h.of_lanes rfl
  · exact (hr _).tellOutcome f false

/-! Answers. -/

theorem takeKnown (h : s.LanesSound) (i : EntryIndex) (l : Locator) : (s.takeKnown i l).LanesSound :=
  (h.moveSlot _ (slotMove_resolve _ _)).setEntry i _

theorem takeWrite (h : s.LanesSound) (i : EntryIndex) : (s.takeWrite i).LanesSound :=
  (h.moveSlot _ (slotMove_toStoring _)).setEntry i _

section Answers
variable (h : s.LanesSound) {i : EntryIndex} {a : AnswerBody}
include h

theorem answerAsking : s.answerAsking i a = some t → t.LanesSound := by
  unfold Station.answerAsking
  rcases a.asVerdict with _ | (_ | _ | _ | _) <;> rintro ⟨⟩
  case known => exact h.takeKnown i _
  case write => exact h.takeWrite i
  case hold => exact (h.moveSlot _ (slotMove_enter (state := .holding) nofun)).setEntry i _
  case noindex => exact (h.storeUnindexed _ _).setEntry i _

theorem answerHolding : s.answerHolding i a = some t → t.LanesSound := by
  unfold Station.answerHolding
  rcases a.asVerdict with _ | (_ | _ | _ | _) <;> rintro ⟨⟩
  case known => exact h.takeKnown i _
  case write => exact h.takeWrite i

theorem answerCommitting : s.answerCommitting i a = some t → t.LanesSound := by
  have hr (k : Kind) (m : Locator) (c : Counter) :
      ((s.moveSlot (s.entry i).binding (Slot.resolve k m)).bump c).LanesSound :=
    (h.moveSlot _ (slotMove_resolve k m)).of_lanes rfl
  unfold Station.answerCommitting
  rcases a with _ | _ | (_ | _ | _) | _ <;> rintro ⟨⟩
  case indexed | superseded => exact (h.moveSlot _ (slotMove_resolve _ _)).setEntry i _
  case notIndexed => exact (hr _ _ _).setEntry i _

/-- The answers of a RELEASING entry, and those of an orphan below, move no slot. -/
theorem answerReleasing : s.answerReleasing i a = some t → t.LanesSound := by
  unfold Station.answerReleasing
  rcases a with _ | _ | _ | o
  iterate 3 rintro ⟨⟩
  dsimp only
  cases (s.entry i).kind with
  | askExchange => rintro ⟨⟩
  | hostRelease => rintro ⟨⟩; exact h.setEntry i _
  | compensation => cases o <;> rintro ⟨⟩ <;> exact h.setEntry i _

theorem answerAskOrphan {held : Bool} : s.answerAskOrphan i held a = some t → t.LanesSound := by
  unfold Station.answerAskOrphan
  rcases a.asVerdict with _ | (_ | _ | _ | _)
  case none => rintro ⟨⟩
  case known | write => rintro ⟨⟩; exact h.setEntry i _
  case hold | noindex => cases held <;> rintro ⟨⟩; exact h.setEntry i _

theorem answerCommitOrphan {aborted : Bool} : s.answerCommitOrphan i aborted a = some t → t.LanesSound := by
  unfold Station.answerCommitOrphan
  rcases a with _ | _ | (_ | _ | _) | _ <;> rintro ⟨⟩ <;> exact h.setEntry i _

theorem answerEntry : s.answerEntry i a = some t → t.LanesSound := by
  unfold Station.answerEntry
  split
  · exact h.answerAsking
  · exact h.answerHolding
  · exact h.answerCommitting
  · exact h.answerReleasing
  · exact h.answerAskOrphan
  · exact h.answerAskOrphan
  · exact h.answerCommitOrphan
  · exact h.answerCommitOrphan
  all_goals rintro ⟨⟩

end Answers

theorem takeAnswer (h : s.LanesSound) (g : Tag) (a : AnswerBody) : (s.takeAnswer g a).LanesSound := by
  unfold Station.takeAnswer
  split
  · cases ha : s.answerEntry (tagIndex g) a with
    | none => exact h.of_lanes rfl
    | some t => exact h.answerEntry ha
  · exact h.of_lanes rfl

theorem handOnAnswer (h : s.LanesSound) (a : Answer) (rest : List Answer) : (s.handOnAnswer a rest).LanesSound := by
  have hu : ({ s with index.answers := rest } : Station).LanesSound := h.of_lanes rfl
  unfold Station.handOnAnswer
  (repeat' split)
  · exact hu.takeAnswer _ _
  all_goals exact h.of_lanes rfl

/-! Deadlines of entries, and the cleanup toward a lost or restarted owner. -/

theorem answerExpired (h : s.LanesSound) (i : EntryIndex) : (s.answerExpired i).LanesSound := by
  unfold Station.answerExpired
  dsimp only
  split
  · exact (h.setEntry i _).attemptFailed i
  · exact (h.setEntry i _).attemptFailed i
  · exact (h.setEntry i _).giveUp _ i
  · exact h.setEntry i _

theorem holdExpired (h : s.LanesSound) (i : EntryIndex) : (s.holdExpired i).LanesSound := by
  unfold Station.holdExpired
  dsimp only
  split
  · exact (h.storeUnindexed _ _).setEntry i _
  · exact h.setEntry i _

theorem entryExpired (h : s.LanesSound) (i : EntryIndex) : (s.entryExpired i).LanesSound := by
  unfold Station.entryExpired Station.expireEntry
  (repeat' split)
  · exact h.answerExpired i
  · exact h.holdExpired i
  · exact h.of_lanes
  · exact h
  · exact h

theorem actDeadline (h : s.LanesSound) (d : Deadline) : (s.actDeadline d).LanesSound := by
  cases d with
  | claim p => exact h.of_lanes (t := s.markDue p)
  | entry i => exact h.entryExpired i
  | peer p => exact h.of_lanes (t := s.markSilence p)
  | beacon => exact h.of_lanes (t := s.beaconExpired)

theorem cleanLost (h : s.LanesSound) (i : EntryIndex) : (s.cleanLost i).LanesSound := by
  unfold Station.cleanLost
  dsimp only
  split
  · exact h.setEntry i _
  split
  · exact (h.storeUnindexed _ _).setEntry i _
  · exact (h.storeUnindexed _ _).setEntry i _
  · exact (h.moveSlot _ (slotMove_resolve _ _)).setEntry i _
  · exact h.giveUp _ i
  · exact h.setEntry i _
  · exact h.setEntry i _
  all_goals exact h

theorem cleanRestarted (h : s.LanesSound) (i : EntryIndex) : (s.cleanRestarted i).LanesSound := by
  unfold Station.cleanRestarted
  dsimp only
  split
  · exact h.setEntry i _
  (repeat' split)
  · exact (h.storeUnindexed _ _).setEntry i _
  · exact (h.storeUnindexed _ _).setEntry i _
  · exact h.sendFailed _ i
  · exact h
  · exact h.sendFailed _ i
  · exact h
  · exact h.setEntry i _
  · exact h.setEntry i _
  all_goals exact h

theorem cleanExchange (h : s.LanesSound) (r : Bool) (p : StationNo) : (s.cleanExchange r p).LanesSound := by
  unfold Station.cleanExchange
  refine List.foldlRecOn _ _ h fun u hu i _ => ?_
  unfold Station.cleanEntry
  split
  · cases r with
    | true => exact hu.cleanRestarted i
    | false => exact hu.cleanLost i
  · exact hu

theorem cleanupPeer (h : s.LanesSound) (r : Bool) (p : StationNo) : (s.cleanupPeer r p).LanesSound :=
  (h.cleanExchange r p).of_lanes (by simp [Station.cleanupPeer])

theorem reportPeer (h : s.LanesSound) (v : PeerEvent) (p : StationNo) : (s.reportPeer v p).LanesSound := h.of_lanes rfl

theorem silencePeer (h : s.LanesSound) (p : StationNo) : (s.silencePeer p).LanesSound := by
  have hu (x : Peer) : (s.setPeer p x).LanesSound := h.of_lanes
  exact ((hu _).cleanupPeer false p).reportPeer _ p

theorem decideBeacon (h : s.LanesSound) (p : StationNo) (f : Bool) (z : BitVec 4) :
    (s.decideBeacon p f z).LanesSound := by
  unfold Station.decideBeacon
  dsimp only
  (repeat' split)
  · exact h.of_lanes rfl
  · exact h
  · exact h.of_lanes
  · exact (h.cleanupPeer true p).reportPeer _ p
  · exact h

theorem takeBeacon (h : s.LanesSound) : s.takeBeacon.LanesSound := by
  unfold Station.takeBeacon
  (repeat' split)
  · refine decideBeacon ?_ _ _ _
    exact h.of_lanes rfl
  all_goals exact h

/-! Lookups and commits. -/

theorem grant (h : s.LanesSound) (r : TagRequest) (i : EntryIndex) : (s.grant r i).LanesSound := by
  unfold Station.grant
  (repeat' split)
  · exact (h.moveSlot _ (slotMove_enter (state := .asking) nofun)).setEntry i _
  · exact h.storeUnindexed _ _
  · exact h.setEntry i _

theorem lookupCheck (h : s.LanesSound) (l : LaneNo) (q : Word) (k : Key) : (s.lookupCheck l q k).LanesSound := by
  unfold Station.lookupCheck
  dsimp only
  (repeat' split)
  · exact h.storeUnindexed _ _
  · exact (h.moveSlot (some ⟨l, q⟩) (slotMove_enter (state := .lookup) nofun)).of_lanes rfl
  · exact h.storeUnindexed _ _

theorem digestDone (h : s.LanesSound) (d : DigestEntry) : (s.digestDone d).LanesSound :=
  lookupCheck (h.moveSlot _ (f := fun x => { x with fp := some (Config.fingerprint d.absorbed.reverse) })
    ⟨fun _ => rfl, fun _ => id⟩) _ _ _

theorem storedSlot (h : s.LanesSound) (b : Binding) (r : Option Reason) (l : Locator) :
    (s.storedSlot b r l).LanesSound := by
  have committing : (s.moveSlot (some b) fun x => { x with state := .committing, locator := some l }).LanesSound :=
    h.moveSlot _ ⟨fun _ => rfl, nofun⟩
  unfold Station.storedSlot Station.commitBound
  (repeat' split)
  · exact committing.setEntry _ _
  · exact committing
  · exact h.moveSlot _ (slotMove_resolve _ _)

end Station.LanesSound

end Sys2Proof.Machine
end

section
namespace Sys2Proof.Machine

/-! ### The lane commands, the chunker and the reports keep every lane sound -/

namespace Station.LanesSound
variable {s t : Station}

/-! Cuts and bytes consumed (R99, R103, R106). -/

theorem cutLane (h : s.LanesSound) (l : LaneNo) : (s.cutLane l).LanesSound := by
  unfold Station.cutLane
  split
  · exact (h.mapLane (h l).cutSlot).of_lanes rfl
  · exact h

theorem finalCut (h : s.LanesSound) (l : LaneNo) : (s.finalCut l).LanesSound := by
  unfold Station.finalCut
  split
  · exact h.cutLane l
  · exact h

theorem consumeBurst (h : s.LanesSound) (b : Burst) (bytes : List Byte) : (s.consumeBurst b bytes).LanesSound := by
  have consumed (k : Nat) : (s.mapLane b.lane fun l =>
      if bytes.isEmpty then l else l.ensureFilling.consumeBytes b.segment k).LanesSound := by
    refine h.mapLane ?_
    split
    · exact h b.lane
    · exact (h b.lane).ensureFilling.consumeBytes (Lane.ensureFilling_filling _) _ _
  unfold Station.consumeBurst
  dsimp only
  split
  · refine cutLane ?_ _
    exact (consumed _).of_lanes rfl
  · exact (consumed _).of_lanes rfl

theorem abortLane (h : s.LanesSound) (l : LaneNo) (r : AbortReason) : (s.abortLane l r).LanesSound := by
  unfold Station.abortLane
  refine mapLane ?_ (.aborted l r _)
  exact h.of_lanes (t := s.abortExchange l)

theorem completeBurst (h : s.LanesSound) (b : Burst) (f : Fetch) : (s.completeBurst b f).LanesSound := by
  have hu : ({ s with chunker.burst := none, fetch.burst := none } : Station).LanesSound := h.of_lanes rfl
  unfold Station.completeBurst
  dsimp only
  (repeat' split)
  · exact hu
  · exact (hu.consumeBurst b _).finalCut _
  · exact hu.abortLane _ _

/-! Commands. -/

theorem takeLaneCommand (h : s.LanesSound) {n : Nat} {decide : CmdEntry → Station → Except CmdErrorCode Station}
    (hd : ∀ e x y, x.LanesSound → decide e x = .ok y → y.LanesSound) : (s.takeLaneCommand n decide).LanesSound := by
  rcases s.takeLaneCommand_cases n decide with e | ⟨e, rest, -, -, -, ⟨-, hy⟩ | ⟨-, x, -, hy⟩ | ⟨-, hy⟩⟩
  · rw [e]; exact h
  · rw [hy]; exact h.of_lanes rfl
  · rw [hy]; exact h.of_lanes rfl
  · exact hd e { s with port.fifo := rest } _ (h.of_lanes rfl) hy

theorem setUpLane (h : s.LanesSound) {l : LaneNo} {r : ParkedRecord} (ht : s.setUpLane l r = .ok t) :
    t.LanesSound := by
  unfold Station.setUpLane at ht
  split at ht <;> cases ht
  exact (h.mapLane (f := fun _ => Machine.openedLane r (s.poolOf r.branch)) (.openedLane _ _)).of_lanes rfl

theorem decideSegment (h : s.LanesSound) {e : CmdEntry} (ht : s.decideSegment e = .ok t) : t.LanesSound := by
  unfold Station.decideSegment at ht
  dsimp only at ht
  (repeat' split at ht) <;> cases ht
  next hlen _ =>
    obtain ⟨h0, hmax⟩ := not_or.1 hlen
    exact h.mapLane ((h _).pushSegment _ (Nat.one_le_iff_ne_zero.2 h0) (Nat.le_of_not_lt hmax))

theorem decideStored (h : s.LanesSound) {e : CmdEntry} (ht : s.decideStored e = .ok t) : t.LanesSound := by
  unfold Station.decideStored at ht
  dsimp only at ht
  (repeat' split at ht) <;> cases ht
  exact h.storedSlot _ _ _

theorem decideStoreFailed (h : s.LanesSound) {e : CmdEntry} (ht : s.decideStoreFailed e = .ok t) : t.LanesSound := by
  unfold Station.decideStoreFailed at ht
  dsimp only at ht
  (repeat' split at ht) <;> cases ht
  exact h.abortLane _ _

theorem decideAbort (h : s.LanesSound) {e : CmdEntry} (ht : s.decideAbort e = .ok t) : t.LanesSound := by
  unfold Station.decideAbort at ht
  split at ht <;> cases ht
  exact h.abortLane _ _

/-- CLOSE and SUSPEND end an OPEN lane, which has no abort list (R127). -/
theorem endLane (h : s.LanesSound) {x : LaneState} {l : LaneNo} (ht : s.endLane x l = .ok t) (hx : x ≠ .free) :
    t.LanesSound := by
  unfold Station.endLane at ht
  split at ht <;> cases ht
  next hopen =>
    refine finalCut (h.mapLane ?_) l
    exact { h l with
      window := (h l).window.of_same rfl ⟨rfl, rfl⟩
      queue := (h l).queue.of_same rfl rfl
      abortFree := fun ha => absurd (hopen.symm.trans ((h l).abortFree ha)) nofun
      opened := fun _ => hx }

/-! Reports. -/

theorem makeLaneReport (h : s.LanesSound) (l : LaneNo) : (s.makeLaneReport l).LanesSound := by
  unfold Station.makeLaneReport
  split
  next d hd => exact (h.mapLane (f := fun _ => d.2) ((h l).duty hd)).of_lanes rfl
  next => exact h

theorem appendReport (h : s.LanesSound) (p : Producer) (r : Report) : (s.appendReport p r).LanesSound := by
  unfold Station.appendReport
  split
  · cases p with
    | lane =>
      cases r with
      | recipe l seq => exact h.of_lanes (by simp [Station.tellProducer])
      | _ => exact h.of_lanes rfl
    | _ => exact h.of_lanes rfl
  · exact h.of_lanes rfl

end Station.LanesSound

/-! ### Every step keeps every lane sound -/

/-- The commands that may touch a lane once the deadlines are acted on. -/
def Instr.touchesLane : Instr → Bool
  | .coldReset | .warmReset | .openLane | .segment | .stored | .storeFailed | .close | .suspend | .resume | .abort
  | .answerHandOn | .burstCompletion | .digestCompletion | .tagGrant | .laneReportReady | .reportAppend
  | .attemptEnd _ _ | .inboundDispatch | .peerSilent | .beaconTaken => true
  | _ => false

/-- Every other command leaves the lane unit as it is. -/
theorem exec_lane {c : Instr} (hd : Instr.isDeadlineRow c = false) (hc : Instr.touchesLane c = false) {s t : State}
    (ha : s.station.DeadlinesActed) (h : exec c s = .next t) : t.station.lane = s.station.lane := by
  rw [← Station.settled_of_acted ha]
  cases c with
  | coldRelease => simp [execColdRelease_frame h]
  | warmRelease => simp [execWarmRelease_frame h]
  | stagingWrite => simp [execStagingWrite_frame h]
  | reportWordRead => simp [execReportWordRead_frame h]
  | statusWordRead => simp [execStatusWordRead_frame h]
  | commandWordWrite => simp [execCommandWordWrite_frame h]
  | poolSet => simp [execPoolSet_frame h]
  | configure => simp [execConfigure_frame h]
  | start => simp [execStart_frame h]
  | stats => simp [execStats_frame h]
  | unknownCommand => simp [execUnknownCommand_frame h]
  | release => simp [execRelease_frame h]
  | leaseTick => simp [execLeaseTick_frame h]
  | leaseExpiry => simp [execLeaseExpiry_frame h]
  | ask => simp [execAsk_frame h]
  | commit => simp [execCommit_frame h]
  | drop => simp [execDrop_frame h]
  | releaseItem => simp [execReleaseItem_frame h]
  | peerLost => simp [execPeerLost_frame h]
  | peerRestarted => simp [execPeerRestarted_frame h]
  | bucketWriteDone => simp [execBucketWriteDone_frame h]
  | workQueueAdmit => simp [execWorkQueueAdmit_frame h]
  | scrubWriteDone => simp [execScrubWriteDone_frame h]
  | burstIssue => simp [execBurstIssue_frame h]
  | fetchReadCompletion => simp [execFetchReadCompletion_frame h]
  | fetchTimeout => simp [execFetchTimeout_frame h]
  | digestStart => simp [execDigestStart_frame h]
  | requestHandOn => simp [execRequestHandOn_frame h]
  | exchangeReportReady => simp [execExchangeReportReady_frame h]
  | contention => simp [execContention_frame h]
  | yieldClear => simp [execYieldClear_frame h]
  | frameReceived => simp [execFrameReceived_frame h]
  | frameAbandoned => simp [execFrameAbandoned_frame h]
  | peerJoin => simp [execPeerJoin_frame h]
  | conflictReport => simp [execConflictReport_frame h]
  | leaseDeadline | answerDeadline | holdDeadline | orphanHoldDeadline | silenceDeadline | beaconDue => cases hd
  | _ => cases hc

theorem exec_keeps_lanesSound {c : Instr} {s t : State} (hd : Instr.isDeadlineRow c = false)
    (ha : s.station.DeadlinesActed) (hs : s.station.LanesSound) (h : exec c s = .next t) : t.station.LanesSound := by
  cases hc : Instr.touchesLane c with
  | false => exact hs.of_lanes (congrArg LaneUnit.lanes (exec_lane hd hc ha h))
  | true =>
    rw [← Station.settled_of_acted ha] at hs
    cases c with
    | coldReset => cases h; exact Station.lanesSound_reset rfl
    | warmReset =>
      cases h
      dsimp only
      split
      · exact hs.of_lanes rfl
      · exact Station.lanesSound_reset rfl
    | openLane | resume => cases h; exact hs.takeLaneCommand fun _ _ _ hx hy => hx.setUpLane hy
    | segment => cases h; exact hs.takeLaneCommand fun _ _ _ hx hy => hx.decideSegment hy
    | stored => cases h; exact hs.takeLaneCommand fun _ _ _ hx hy => hx.decideStored hy
    | storeFailed => cases h; exact hs.takeLaneCommand fun _ _ _ hx hy => hx.decideStoreFailed hy
    | close | suspend => cases h; exact hs.takeLaneCommand fun _ _ _ hx hy => hx.endLane hy nofun
    | abort => cases h; exact hs.takeLaneCommand fun _ _ _ hx hy => hx.decideAbort hy
    | answerHandOn =>
      cases h
      dsimp only
      (repeat' split)
      · exact hs.handOnAnswer _ _
      all_goals exact hs
    | burstCompletion =>
      cases h
      dsimp only
      (repeat' split)
      · exact hs.completeBurst _ _
      all_goals exact hs
    | digestCompletion =>
      cases h
      dsimp only
      (repeat' split)
      · exact hs.of_lanes rfl
      · refine Station.LanesSound.digestDone ?_ _
        exact hs.of_lanes rfl
      · exact hs
    | tagGrant =>
      cases h
      dsimp only
      split
      · refine Station.LanesSound.grant ?_ _ _
        exact hs.of_lanes rfl
      · exact hs
    | laneReportReady =>
      cases h
      dsimp only
      (repeat' split)
      · exact hs
      · exact hs.makeLaneReport _
      · exact hs
    | reportAppend =>
      cases h
      dsimp only
      (repeat' split)
      · exact hs.appendReport _ _
      all_goals exact hs
    | attemptEnd =>
      cases h
      dsimp only
      (repeat' split)
      · refine Station.LanesSound.endAttempt ?_ _ _
        exact hs.of_lanes rfl
      · refine Station.LanesSound.endAttempt ?_ _ _
        exact hs.of_lanes rfl
      · exact hs
    | inboundDispatch =>
      cases h
      dsimp only
      (repeat' split)
      · refine Station.LanesSound.takeAnswer ?_ _ _
        exact hs.of_lanes rfl
      · exact hs.takeBeacon
      iterate 4 exact hs.of_lanes
      exact hs
    | peerSilent =>
      cases h
      dsimp only
      (repeat' split)
      · exact hs
      · refine Station.LanesSound.silencePeer ?_ _
        exact hs.of_lanes rfl
      · exact hs
    | beaconTaken => cases h; exact hs.takeBeacon
    | _ => cases hc

theorem lanesSound_keptByDeadlines : KeptByDeadlines Station.LanesSound := fun s d ds _ h =>
  Station.LanesSound.actDeadline (s := { s with clock.reached := ds }) (h.of_lanes rfl) d

/-- Settles O10: a window and a segment queue change only by slot moves, by what joins at the tail and by what leaves at
the head. -/
theorem lanesStayInStreamOrder : Obligations.LanesStayInStreamOrder := fun _ _ hs h =>
  step_keeps (fun _ h => h) lanesSound_keptByDeadlines (fun _ _ h => h.of_lanes)
    (fun _ _ _ hd ha hs h => exec_keeps_lanesSound hd ha hs h) hs h

end Sys2Proof.Machine
end

section
namespace Sys2Proof.Machine

/-! ### The lane commands: the head taken, the lane it names, its operands (R112, R170, R181) -/

/-- The lane of a lane command is the one it names. -/
theorem CmdEntry.names.lane_eq {e : CmdEntry} {l : LaneNo} (h : e.names l) : e.lane = l := by
  refine Fin.ext ?_
  rw [CmdEntry.names] at h
  simpa [CmdEntry.lane] using h

theorem join48_eq (lo hi : Word) : join48 lo hi = hi.extractLsb' 0 16 ++ lo := by
  rw [join48, BitVec.setWidth_eq_extractLsb' (by decide)]

/-- The locator of a STORED (Table 10.5a). -/
theorem CmdEntry.storedLocator_eq (e : CmdEntry) : e.storedLocator = (e.arg 3).extractLsb' 0 16 ++ e.arg 2 :=
  join48_eq ..

/-- With no deadline waiting to be acted on a command's effect is on the station as it stands. -/
theorem runEvent_acted (f : Station → Station) {s : Station} (ha : s.DeadlinesActed) (q : List Instr) :
    runEvent f ⟨s, q⟩ = .next ⟨f s, q⟩ := by
  rw [runEvent_eq, Station.settled_of_acted ha]

section Head
variable {s t : Station} {code : Nat} {e : CmdEntry} {rest : List CmdEntry} {l : LaneNo} {x : CmdErrorCode}
  {decide : CmdEntry → Station → Except CmdErrorCode Station}
  (h : s.HeadIs code e rest) (hr : s.control.state = .running)
include h hr

/-- In RUNNING the lane unit takes the command. -/
theorem Station.HeadIs.takeLaneCommand_ok (hd : decide e (s.popped rest) = .ok t) :
    s.takeLaneCommand code decide = t := by
  have hrun : (s.popped rest).running = true := beq_iff_eq.2 hr
  rw [Station.takeLaneCommand, h.takeHead_eq, if_pos hrun, hd]
  rfl

/-- Or it refuses the command, with the command's lane. -/
theorem Station.HeadIs.takeLaneCommand_error (hl : e.names l) (hd : decide e (s.popped rest) = .error x) :
    s.takeLaneCommand code decide = s.refusedAs e rest l x := by
  have hrun : (s.popped rest).running = true := beq_iff_eq.2 hr
  rw [Station.takeLaneCommand, h.takeHead_eq, if_pos hrun, hd, hl.lane_eq]
  rfl

end Head

/-! #### STORED (R78, R120) -/

/-- A slot is STORING with its STORE reported exactly where it gives its marker. -/
theorem Slot.storingReported_eq_some {y : Slot} {u : Option Reason} :
    y.storingReported = some u ↔ y.state = .storing u false := by
  unfold Slot.storingReported
  split
  next v hs => simp [hs]
  next hs => simpa using hs u

section Slot
variable {x : Lane} {seq : Word} {a b : List Slot} {y : Slot}

/-- The slot that a sequence number names is the first that bears it. -/
theorem Lane.slot_eq_some (hw : x.window = a ++ y :: b) (ha : ∀ z ∈ a, z.seq ≠ seq) (hy : y.seq = seq) :
    x.slot seq = some y := by
  unfold Lane.slot
  rw [hw, List.find?_append, List.find?_eq_none.2 fun z hz => by simpa using ha z hz]
  simp [hy]

theorem Lane.storingSlot_eq_some {u : Option Reason} (hw : x.window = a ++ y :: b) (ha : ∀ z ∈ a, z.seq ≠ seq)
    (hy : y.seq = seq) (hs : y.state = .storing u false) : x.storingSlot seq = some u := by
  rw [Lane.storingSlot, Lane.slot_eq_some hw ha hy]
  exact Slot.storingReported_eq_some.2 hs

/-- No slot to store where none of that number is STORING with its STORE reported. -/
theorem Lane.storingSlot_eq_none (h : ∀ y ∈ x.window, y.seq = seq → ∀ u, y.state ≠ .storing u false) :
    x.storingSlot seq = none := by
  rw [Lane.storingSlot, Option.bind_eq_none_iff]
  intro y hy
  have hseq : y.seq = seq := beq_iff_eq.1 (List.find?_some (p := fun z : Slot => z.seq == seq) hy)
  refine Option.eq_none_iff_forall_ne_some.2 fun u hu => ?_
  exact h y (List.mem_of_find?_eq_some hy) hseq u (Slot.storingReported_eq_some.1 hu)

/-- The one slot of a number moved. -/
theorem Lane.mapSlot_eq (f : Slot → Slot) (hw : x.window = a ++ y :: b) (hab : ∀ z ∈ a ++ b, z.seq ≠ seq)
    (hy : y.seq = seq) : x.mapSlot seq f = { x with window := a ++ f y :: b } := by
  rw [Lane.mapSlot, hw, map_ite_of_unique (p := fun z : Slot => z.seq = seq) f hab hy]

/-- A slot move for the one slot of a number. -/
theorem Station.moveSlot_eq {s : Station} {l : LaneNo} (f : Slot → Slot) (hw : (s.laneAt l).window = a ++ y :: b)
    (hab : ∀ z ∈ a ++ b, z.seq ≠ seq) (hy : y.seq = seq) : s.moveSlot (some ⟨l, seq⟩) f =
      s.withLane l { s.laneAt l with window := a ++ f y :: b } := by
  rw [← Lane.mapSlot_eq f hw hab hy]
  rfl

end Slot

theorem Station.boundEntry_eq_none {s : Station} {b : Binding} :
    s.boundEntry b = none ↔ ∀ i, (s.entry i).binding ≠ some b := by
  unfold Station.boundEntry
  rw [lowestFind_eq_none]
  simp only [beq_eq_false_iff_ne]

@[simp] theorem Station.boundEntry_withLane (b : Binding) (l : LaneNo) (x : Lane) (s : Station) :
    (s.withLane l x).boundEntry b = s.boundEntry b := rfl

section StoredSlot
variable {s : Station} {l : LaneNo} {seq : Word} {locator : Locator} {a b : List Slot} {y : Slot}
  (hw : (s.laneAt l).window = a ++ y :: b) (hab : ∀ z ∈ a ++ b, z.seq ≠ seq) (hy : y.seq = seq)
include hw hab hy

/-- An unindexed slot is resolved under the locator (R120). -/
theorem Station.storedSlot_unindexed {r : Reason} : s.storedSlot ⟨l, seq⟩ (some r) locator = s.withLane l
    { s.laneAt l with
      window := a ++ { y with state := .resolved (.unindexed r), locator := some locator } :: b } :=
  Station.moveSlot_eq _ hw hab hy

/-- An indexed slot is COMMITTING, and so is the entry bound to it, with the locator and a COMMIT to send (R78). -/
theorem Station.storedSlot_bound {i : EntryIndex} (hi : s.BoundAt l seq i) :
    s.storedSlot ⟨l, seq⟩ none locator = (s.withLane l
      { s.laneAt l with
        window := a ++ { y with state := .committing, locator := some locator } :: b }).setEntry i
      { s.entry i with
        state := .committing
        locator := some locator
        request := some (.commit, .pending)
        attempts := 1
        ackedOnce := false
        deadline := none } := by
  rw [Station.storedSlot, Station.moveSlot_eq _ hw hab hy, Station.commitBound,
    Station.boundEntry_withLane, Station.boundEntry_eq_some.2 hi]
  rfl

theorem Station.storedSlot_unbound (hno : ∀ i, (s.entry i).binding ≠ some ⟨l, seq⟩) :
    s.storedSlot ⟨l, seq⟩ none locator = s.withLane l
      { s.laneAt l with
        window := a ++ { y with state := .committing, locator := some locator } :: b } := by
  rw [Station.storedSlot, Station.moveSlot_eq _ hw hab hy, Station.commitBound,
    Station.boundEntry_withLane, Station.boundEntry_eq_none.2 hno]

end StoredSlot

theorem exec_stored_eq {s : Station} (ha : s.DeadlinesActed) (q : List Instr) :
    exec .stored ⟨s, q⟩ = .next ⟨s.takeLaneCommand 7 fun e t => t.decideStored e, q⟩ :=
  runEvent_acted _ ha q

section Stored
variable {s : Station} {e : CmdEntry}

theorem Station.decideStored_free (h : (s.laneAt e.lane).state = .free) : s.decideStored e = .error .laneFree :=
  if_pos h

variable (hfree : (s.laneAt e.lane).state ≠ .free)
include hfree

theorem Station.decideStored_badLocator (h : e.storedLocator = 0) : s.decideStored e = .error .badLocator :=
  (if_neg hfree).trans (if_pos h)

variable (hloc : e.storedLocator ≠ 0)
include hloc

theorem Station.decideStored_notStoring (h : (s.laneAt e.lane).storingSlot e.recipeSeq = none) :
    s.decideStored e = .error .notStoring := by
  refine (if_neg hfree).trans ((if_neg hloc).trans ?_)
  rw [h]

theorem Station.decideStored_taken {u : Option Reason} (h : (s.laneAt e.lane).storingSlot e.recipeSeq = some u) :
    s.decideStored e = .ok (s.storedSlot ⟨e.lane, e.recipeSeq⟩ u e.storedLocator) := by
  refine (if_neg hfree).trans ((if_neg hloc).trans ?_)
  rw [h]

end Stored

/-- Settles O31: the slot named is the one that bears the number, and it alone moves. -/
theorem storedTakesTheLocator : Obligations.StoredTakesTheLocator := by
  intro s ha q e rest l hhead hrun hl x seq locator
  obtain rfl := hl.lane_eq
  have hlocator : e.storedLocator = locator := e.storedLocator_eq
  rw [exec_stored_eq ha]
  refine ⟨fun hfree => ?_, fun hfree h0 => ?_, fun hfree h0 hno => ?_,
    fun a y b hfree h0 hw hy hab => ⟨fun r hs => ?_, fun hs => ⟨fun i hi => ?_, fun hno => ?_⟩⟩⟩
  · rw [hhead.takeLaneCommand_error hrun hl (Station.decideStored_free hfree)]
  · rw [hhead.takeLaneCommand_error hrun hl (Station.decideStored_badLocator hfree (hlocator.trans h0))]
  · rw [hhead.takeLaneCommand_error hrun hl
      (Station.decideStored_notStoring hfree (hlocator ▸ h0) (Lane.storingSlot_eq_none hno))]
  all_goals
    have hslot := Lane.storingSlot_eq_some hw (fun z hz => hab z (List.mem_append_left b hz)) hy hs
    have htaken := Station.decideStored_taken (s := s.popped rest) hfree (hlocator ▸ h0) hslot
    rw [hhead.takeLaneCommand_ok hrun htaken, hlocator]
  · rw [Station.storedSlot_unindexed (s := s.popped rest) (seq := e.recipeSeq) hw hab hy]
    rfl
  · rw [Station.storedSlot_bound (s := s.popped rest) (seq := e.recipeSeq) hw hab hy hi]
    rfl
  · rw [Station.storedSlot_unbound (s := s.popped rest) (seq := e.recipeSeq) hw hab hy hno]
    rfl

end Sys2Proof.Machine
end

section
namespace Sys2Proof.Machine

/-! ### ABORT and STORE_FAILED (R121, R129, R130) -/

section Commands
variable {s : Station} (ha : s.DeadlinesActed) (q : List Instr)
include ha

theorem exec_abort_eq : exec .abort ⟨s, q⟩ = .next ⟨s.takeLaneCommand 12 fun e t => t.decideAbort e, q⟩ :=
  runEvent_acted _ ha q

theorem exec_storeFailed_eq :
    exec .storeFailed ⟨s, q⟩ = .next ⟨s.takeLaneCommand 8 fun e t => t.decideStoreFailed e, q⟩ :=
  runEvent_acted _ ha q

theorem exec_close_eq : exec .close ⟨s, q⟩ = .next ⟨s.takeLaneCommand 9 fun e t => t.endLane .closing e.lane, q⟩ :=
  runEvent_acted _ ha q

theorem exec_suspend_eq :
    exec .suspend ⟨s, q⟩ = .next ⟨s.takeLaneCommand 10 fun e t => t.endLane .suspending e.lane, q⟩ :=
  runEvent_acted _ ha q

end Commands

section Decisions
variable {s : Station} {e : CmdEntry}

theorem Station.decideAbort_free (h : (s.laneAt e.lane).state = .free) : s.decideAbort e = .error .laneFree := if_pos h

theorem Station.decideStoreFailed_free (h : (s.laneAt e.lane).state = .free) :
    s.decideStoreFailed e = .error .laneFree := if_pos h

variable (hfree : (s.laneAt e.lane).state ≠ .free)
include hfree

theorem Station.decideAbort_taken : s.decideAbort e = .ok (s.abortLane e.lane .host) := if_neg hfree

theorem Station.decideStoreFailed_notStoring (h : (s.laneAt e.lane).storingSlot e.recipeSeq = none) :
    s.decideStoreFailed e = .error .notStoring :=
  (if_neg hfree).trans (if_neg (by rw [h]; exact nofun))

theorem Station.decideStoreFailed_taken {u : Option Reason} (h : (s.laneAt e.lane).storingSlot e.recipeSeq = some u) :
    s.decideStoreFailed e = .ok (s.abortLane e.lane .storeFailed) :=
  (if_neg hfree).trans (if_pos (by rw [h]; rfl))

end Decisions

/-- Settles O32: each decision, where it is taken, is the lane's abort. -/
theorem abortAndStoreFailedEndLane : Obligations.AbortAndStoreFailedEndLane := by
  intro s ha q e rest l hrun hl x
  obtain rfl := hl.lane_eq
  refine ⟨fun c code hc hhead hfree => ?_, fun hhead hfree => ⟨_, ?_, Station.abortLane_laneAborted ..⟩,
    fun hhead hfree hno => ?_, fun a y b u hhead hfree hw hfirst hy hs => ⟨_, ?_, Station.abortLane_laneAborted ..⟩⟩
  · simp only [List.mem_cons, Prod.mk.injEq, List.not_mem_nil, or_false] at hc
    obtain ⟨rfl, rfl⟩ | ⟨rfl, rfl⟩ := hc
    · rw [exec_abort_eq ha, hhead.takeLaneCommand_error hrun hl (Station.decideAbort_free hfree)]
    · rw [exec_storeFailed_eq ha, hhead.takeLaneCommand_error hrun hl (Station.decideStoreFailed_free hfree)]
  · rw [exec_abort_eq ha, hhead.takeLaneCommand_ok hrun (Station.decideAbort_taken hfree)]
  · rw [exec_storeFailed_eq ha, hhead.takeLaneCommand_error hrun hl
      (Station.decideStoreFailed_notStoring hfree (Lane.storingSlot_eq_none hno))]
  · have hslot := Lane.storingSlot_eq_some hw hfirst hy hs
    rw [exec_storeFailed_eq ha, hhead.takeLaneCommand_ok hrun (Station.decideStoreFailed_taken hfree hslot)]

/-! ### CLOSE and SUSPEND (R106, R107, R127) -/

/-- A burst in flight for a lane is one that is not void (assumption 20). -/
theorem Station.burstFor_eq_false {s : Station} {l : LaneNo} :
    s.burstFor l = false ↔ ∀ b, s.chunker.burst = some b → b.lane = l → b.void = true := by
  unfold Station.burstFor
  cases s.chunker.burst with
  | none => simp
  | some b => simp

/-- The queued bytes of a lane are all consumed and no burst is in flight for it (R106). -/
def Station.AllConsumed (s : Station) (l : LaneNo) : Prop :=
  (∀ d ∈ (s.laneAt l).segments, d.length ≤ d.consumed) ∧
    ∀ b, s.chunker.burst = some b → b.lane = l → b.void = true

theorem Station.finalCut_consumed {s : Station} {l : LaneNo} (h : s.AllConsumed l)
    (hs : (s.laneAt l).state = .closing ∨ (s.laneAt l).state = .suspending) : s.finalCut l = s.cutLane l := by
  obtain ⟨hsegments, hburst⟩ := h
  refine if_pos ?_
  rw [Lane.drained_iff.1 ⟨hs, hsegments⟩, Station.burstFor_eq_false.2 hburst]
  rfl

theorem Station.finalCut_not_consumed {s : Station} {l : LaneNo} (h : ¬s.AllConsumed l) : s.finalCut l = s := by
  refine if_neg fun hcut => h ?_
  rw [Bool.and_eq_true, Bool.not_eq_true'] at hcut
  obtain ⟨hdrained, hburst⟩ := hcut
  exact ⟨(Lane.drained_iff.2 hdrained).2, Station.burstFor_eq_false.1 hburst⟩

section EndLane
variable {s : Station} {l : LaneNo} {state : LaneState}

theorem Station.endLane_free (h : (s.laneAt l).state = .free) : s.endLane state l = .error .laneFree := by
  rw [Station.endLane, h]

theorem Station.endLane_ending (h : (s.laneAt l).state = .closing ∨ (s.laneAt l).state = .suspending) :
    s.endLane state l = .error .laneEnding := by
  rcases h with h | h <;> rw [Station.endLane, h]

theorem Station.endLane_open (h : (s.laneAt l).state = .openLane) :
    s.endLane state l = .ok ((s.withLane l { s.laneAt l with state := state }).finalCut l) := by
  rw [Station.endLane, h]
  rfl

/-- No final cut while bytes are to come, or where no slot is FILLING (R107). -/
theorem Station.endLane_uncut (h : (s.laneAt l).state = .openLane)
    (hno : ¬s.AllConsumed l ∨ ∀ y ∈ (s.laneAt l).window, y.state ≠ .filling) :
    s.endLane state l = .ok (s.withLane l { s.laneAt l with state := state }) := by
  rw [Station.endLane_open h]
  have hlane : (s.withLane l { s.laneAt l with state := state }).laneAt l = { s.laneAt l with state := state } :=
    Station.laneAt_withLane ..
  refine congrArg Except.ok (hno.elim (fun hc => ?_) fun hf => ?_)
  · refine Station.finalCut_not_consumed fun hc' => hc ?_
    rw [Station.AllConsumed, hlane] at hc'
    exact hc'
  · exact Station.finalCut_eq_self (by rw [hlane]; exact hf)

/-- The final cut of a lane whose bytes are all consumed. -/
theorem Station.endLane_cut (h : (s.laneAt l).state = .openLane) (hstate : state = .closing ∨ state = .suspending)
    (hc : s.AllConsumed l) {a : List Slot} {y : Slot} (hw : (s.laneAt l).window = a ++ [y])
    (ha : ∀ z ∈ a, z.state ≠ .filling) (hy : y.state = .filling) :
    s.endLane state l =
      .ok ((s.withLane l { s.laneAt l with state := state, window := a ++ [y.cutToDigesting] }).withCut l y.seq
        (s.context l)) := by
  rw [Station.endLane_open h]
  have hlane : (s.withLane l { s.laneAt l with state := state }).laneAt l = { s.laneAt l with state := state } :=
    Station.laneAt_withLane ..
  rw [Station.finalCut_consumed (by rw [Station.AllConsumed, hlane]; exact hc) (by rw [hlane]; exact hstate),
    Station.cutLane_eq (by rw [hlane]; exact hw) ha hy, hlane, Station.withLane_withLane]
  rfl

end EndLane

/-- Settles O33: an OPEN lane takes its ending state, and then the final cut where R106 gives it. -/
theorem closeAndSuspendDrainLane : Obligations.CloseAndSuspendDrainLane := by
  intro s ha q e rest l c code state hc hhead hrun hl x consumed
  obtain rfl := hl.lane_eq
  have hexec : exec c ⟨s, q⟩ = .next ⟨s.takeLaneCommand code fun e t => t.endLane state e.lane, q⟩ ∧
      (state = .closing ∨ state = .suspending) := by
    simp only [List.mem_cons, Prod.mk.injEq, List.not_mem_nil, or_false] at hc
    obtain ⟨rfl, rfl, rfl⟩ | ⟨rfl, rfl, rfl⟩ := hc
    · exact ⟨exec_close_eq ha q, .inl rfl⟩
    · exact ⟨exec_suspend_eq ha q, .inr rfl⟩
  obtain ⟨hexec, hstate⟩ := hexec
  rw [hexec]
  refine ⟨fun hs => ?_, fun hs => ?_, fun hs hno => ?_, fun a y hs hc hw ha hy => ?_⟩
  · rw [hhead.takeLaneCommand_error hrun hl (Station.endLane_free (s := s.popped rest) hs)]
  · rw [hhead.takeLaneCommand_error hrun hl (Station.endLane_ending (s := s.popped rest) hs)]
  · rw [hhead.takeLaneCommand_ok hrun (Station.endLane_uncut (s := s.popped rest) hs hno)]
    rfl
  · rw [hhead.takeLaneCommand_ok hrun (Station.endLane_cut (s := s.popped rest) hs hstate hc hw ha hy)]
    rfl

end Sys2Proof.Machine
end

section
namespace Sys2Proof.Machine

/-! ### OPEN, RESUME and SEGMENT (R114, R118, R119) -/

/-- The parked record that the arguments of RESUME spell (Tables 6.6 and 10.5a). -/
theorem CmdEntry.parkedRecord_eq (e : CmdEntry) : e.parkedRecord =
    ⟨e.arg 1, (e.arg 2).extractLsb' 0 12, (e.arg 4).extractLsb' 0 16 ++ e.arg 3, e.arg 5, e.arg 6,
      (e.arg 8).extractLsb' 0 16 ++ e.arg 7, (e.arg 10).extractLsb' 0 16 ++ e.arg 9,
      (e.arg 12).extractLsb' 0 16 ++ e.arg 11, (e.arg 14).extractLsb' 0 16 ++ e.arg 13, e.arg 15⟩ := by
  have hbranch : (e.arg 2).setWidth 12 = (e.arg 2).extractLsb' 0 12 := BitVec.setWidth_eq_extractLsb' (by decide)
  simp only [CmdEntry.parkedRecord, join48_eq, hbranch]

section Commands
variable {s : Station} (ha : s.DeadlinesActed) (q : List Instr)
include ha

theorem exec_openLane_eq : exec .openLane ⟨s, q⟩ = .next ⟨s.takeLaneCommand 5 fun e t =>
    t.setUpLane e.lane { stream := e.openStream, branch := e.openBranch }, q⟩ :=
  runEvent_acted _ ha q

theorem exec_resume_eq :
    exec .resume ⟨s, q⟩ = .next ⟨s.takeLaneCommand 11 fun e t => t.setUpLane e.lane e.parkedRecord, q⟩ :=
  runEvent_acted _ ha q

theorem exec_segment_eq : exec .segment ⟨s, q⟩ = .next ⟨s.takeLaneCommand 6 fun e t => t.decideSegment e, q⟩ :=
  runEvent_acted _ ha q

end Commands

section SetUp
variable {s : Station} {l : LaneNo} {r : ParkedRecord}

theorem Station.setUpLane_taken (hs : (s.laneAt l).state = .free) (ha : (s.laneAt l).abortList = []) :
    s.setUpLane l r = .ok ((s.withLane l (openedLane r (s.poolOf r.branch))).setContext l {}) :=
  if_pos ⟨hs, ha⟩

theorem Station.setUpLane_busy (h : (s.laneAt l).state ≠ .free ∨ (s.laneAt l).abortList ≠ []) :
    s.setUpLane l r = .error .laneBusy :=
  if_neg fun ⟨hs, ha⟩ => h.elim (absurd hs) (absurd ha)

end SetUp

/-- A length that SEGMENT takes (R113). -/
theorem CmdEntry.segmentLength_good {e : CmdEntry} (h1 : 1 ≤ e.segmentLength) (h2 : e.segmentLength ≤ 1048576) :
    ¬(e.segmentLength = 0 ∨ Config.segmentMax < e.segmentLength) :=
  fun h => h.elim (Nat.one_le_iff_ne_zero.1 h1) (Nat.not_lt.2 h2)

section Segment
variable {s : Station} {e : CmdEntry}

theorem Station.decideSegment_free (h : (s.laneAt e.lane).state = .free) : s.decideSegment e = .error .laneFree :=
  if_pos h

theorem Station.decideSegment_ending (h : (s.laneAt e.lane).state = .closing ∨ (s.laneAt e.lane).state = .suspending) :
    s.decideSegment e = .error .laneEnding :=
  (if_neg (by rcases h with h | h <;> rw [h] <;> exact nofun)).trans (if_pos (Lane.draining_iff.2 h))

variable (hopen : (s.laneAt e.lane).state = .openLane)
include hopen

/-- An OPEN lane decides on length and queue. -/
theorem Station.decideSegment_open : s.decideSegment e =
    if e.segmentLength = 0 ∨ Config.segmentMax < e.segmentLength then .error .badLength
    else if Config.segmentQueueMax ≤ (s.laneAt e.lane).segments.length then .error .queueFull
    else .ok (s.mapLane e.lane (Lane.pushSegment e.segmentAddress e.segmentLength)) := by
  refine (if_neg (by rw [hopen]; exact nofun)).trans (if_neg ?_)
  rw [Lane.draining_iff, hopen]
  exact nofun

theorem Station.decideSegment_badLength (h : e.segmentLength = 0 ∨ 1048576 < e.segmentLength) :
    s.decideSegment e = .error .badLength :=
  (Station.decideSegment_open hopen).trans (if_pos h)

variable (h1 : 1 ≤ e.segmentLength) (h2 : e.segmentLength ≤ 1048576)
include h1 h2

theorem Station.decideSegment_queueFull (h : 8 ≤ (s.laneAt e.lane).segments.length) :
    s.decideSegment e = .error .queueFull :=
  (Station.decideSegment_open hopen).trans ((if_neg (CmdEntry.segmentLength_good h1 h2)).trans (if_pos h))

theorem Station.decideSegment_taken (h : (s.laneAt e.lane).segments.length < 8) : s.decideSegment e =
    .ok (s.withLane e.lane ((s.laneAt e.lane).pushSegment e.segmentAddress e.segmentLength)) :=
  (Station.decideSegment_open hopen).trans
    ((if_neg (CmdEntry.segmentLength_good h1 h2)).trans (if_neg (Nat.not_le.2 h)))

end Segment

/-- A descriptor ends its length past the end of the queue, or past the byte offset where the queue is empty (R114). -/
theorem Lane.nextEnd_eq {x : Lane} {base : Offset} (n : Nat)
    (h : x.segments = [] ∧ base = x.record.offset ∨ ∃ a d, x.segments = a ++ [d] ∧ base = d.endOffset) :
    x.nextEnd n = base + BitVec.ofNat 48 n := by
  rw [Lane.nextEnd]
  obtain ⟨hs, rfl⟩ | ⟨a, d, hs, rfl⟩ := h
  · rw [hs]
    rfl
  · rw [hs, List.getLast?_concat]
    rfl

/-- Settles O30. OPEN and RESUME are one decision, on the record that their arguments spell. -/
theorem openResumeAndSegmentDecided : Obligations.OpenResumeAndSegmentDecided := by
  refine ⟨fun s ha q e rest l c r hrun hl hc => ?_, fun s ha q e rest l hhead hrun hl => ?_⟩
  · obtain rfl := hl.lane_eq
    obtain ⟨code, decide, hexec, hhead, hdecide⟩ : ∃ code decide,
        exec c ⟨s, q⟩ = .next ⟨s.takeLaneCommand code decide, q⟩ ∧ s.HeadIs code e rest ∧
          decide e (s.popped rest) = (s.popped rest).setUpLane e.lane r := by
      obtain ⟨rfl, hhead, rfl⟩ | ⟨rfl, hhead, rfl⟩ := hc
      · exact ⟨5, _, exec_openLane_eq ha q, hhead, rfl⟩
      · exact ⟨11, _, exec_resume_eq ha q, hhead, by rw [CmdEntry.parkedRecord_eq]⟩
    rw [hexec]
    refine ⟨fun hs hlist => ?_, fun hbusy => ?_⟩
    · rw [hhead.takeLaneCommand_ok hrun (hdecide.trans (Station.setUpLane_taken hs hlist))]
      rfl
    · rw [hhead.takeLaneCommand_error hrun hl (hdecide.trans (Station.setUpLane_busy hbusy))]
  · intro x n
    obtain rfl := hl.lane_eq
    rw [exec_segment_eq ha]
    refine ⟨fun hs => ?_, fun hs => ?_, fun hs hn => ?_, fun hs h1 h2 hfull => ?_, fun base hs h1 h2 hroom hbase => ?_⟩
    · rw [hhead.takeLaneCommand_error hrun hl (Station.decideSegment_free (s := s.popped rest) hs)]
    · rw [hhead.takeLaneCommand_error hrun hl (Station.decideSegment_ending (s := s.popped rest) hs)]
    · rw [hhead.takeLaneCommand_error hrun hl (Station.decideSegment_badLength (s := s.popped rest) hs hn)]
    · rw [hhead.takeLaneCommand_error hrun hl (Station.decideSegment_queueFull (s := s.popped rest) hs h1 h2 hfull)]
    · rw [hhead.takeLaneCommand_ok hrun (Station.decideSegment_taken (s := s.popped rest) hs h1 h2 hroom),
        ← Lane.nextEnd_eq n hbase]
      rfl

end Sys2Proof.Machine
end

section
namespace Sys2Proof.Machine

/-! ### The reports of the lane unit (R122, R123, R124, R125, R128) -/

section Duties
variable {l : LaneNo} {x : Lane}

theorem Lane.dutyAbort_eq_none : x.dutyAbort = none ↔ x.abortList = [] := by
  unfold Lane.dutyAbort
  cases x.abortList <;> simp

theorem Lane.dutyOpened_eq_none : x.dutyOpened l = none ↔ x.openedOwed = false := by
  unfold Lane.dutyOpened
  cases x.openedOwed <;> simp

/-- A descriptor is done when its end is at or behind the release point, across the wrap (R124). -/
theorem Lane.descriptorDone_iff {d : Descriptor} :
    x.descriptorDone d = true ↔ (x.pointOfRelease - d.endOffset).toNat < 2 ^ 47 := by
  rw [Lane.descriptorDone, Lane.releasePoint_eq, decide_eq_true_eq]

theorem Lane.headDone_iff {d : Descriptor} {rest : List Descriptor} (hs : x.segments = d :: rest) :
    x.HeadDone ↔ x.descriptorDone d = true := by
  rw [Lane.descriptorDone_iff]
  refine ⟨fun ⟨d', rest', hs', hd⟩ => ?_, fun hd => ⟨d, rest, hs, hd⟩⟩
  cases hs.symm.trans hs'
  exact hd

theorem Lane.dutySegment_eq_none : x.dutySegment l = none ↔ ¬x.HeadDone := by
  unfold Lane.dutySegment
  split
  next hs => simp [Lane.headDone_iff hs]
  next hs => simp [Lane.HeadDone, hs]

theorem Slot.storeOwed_iff {y : Slot} : y.storeOwed = true ↔ ∃ u, y.state = .storing u true := by
  unfold Slot.storeOwed
  split
  next u owed hs => simp [hs]
  next hs => simpa using fun u => hs u true

theorem Lane.dutyStore_eq_none : x.dutyStore l = none ↔ ¬∃ y ∈ x.window, ∃ u, y.state = .storing u true := by
  have hfind : x.dutyStore l = none ↔ x.window.find? Slot.storeOwed = none := by
    unfold Lane.dutyStore
    cases x.window.find? Slot.storeOwed <;> simp
  rw [hfind, List.find?_eq_none]
  simp only [Slot.storeOwed_iff, not_exists, not_and]

theorem Slot.resolvedKind_eq_some {y : Slot} {k : Kind} : y.resolvedKind = some k ↔ y.state = .resolved k := by
  unfold Slot.resolvedKind
  split
  next k' hs => simp [hs]
  next hs => simpa using hs k

theorem Lane.dutyRecipe_eq_none :
    x.dutyRecipe l = none ↔ ¬∃ y rest k, x.window = y :: rest ∧ y.state = .resolved k := by
  unfold Lane.dutyRecipe
  cases x.window with
  | nil => simp
  | cons y rest =>
    cases hk : y.resolvedKind with
    | none => simp [hk, ← Slot.resolvedKind_eq_some]
    | some k => simp [hk, ← Slot.resolvedKind_eq_some]

theorem Lane.dutyDrained_eq_none : x.dutyDrained l = none ↔
    ¬(x.window = [] ∧ x.segments = [] ∧ (x.state = .closing ∨ x.state = .suspending)) := by
  unfold Lane.dutyDrained
  cases hs : x.state <;> simp

/-- A lane has a report to make where one of its duties is (R125). -/
theorem Lane.duty_eq_none : x.duty l = none ↔ ¬x.HasDuty := by
  unfold Lane.duty
  split
  next d hd =>
    have ha : x.abortList ≠ [] := mt Lane.dutyAbort_eq_none.2 (by rw [hd]; exact nofun)
    simp [Lane.HasDuty, ha]
  next hd =>
    have ha : x.abortList = [] := Lane.dutyAbort_eq_none.1 hd
    split
    next hs => simp [Lane.HasDuty, ha, hs]
    next hs =>
      simp only [Option.or_eq_none_iff, Lane.dutyOpened_eq_none, Lane.dutySegment_eq_none, Lane.dutyStore_eq_none,
        Lane.dutyRecipe_eq_none, Lane.dutyDrained_eq_none, Lane.HasDuty, ha, hs, ne_eq, not_true, not_false_iff,
        false_or, true_and, not_or, Bool.not_eq_true]

/-- The other duties of a lane that is not FREE, its abort list empty, in their order. -/
theorem Lane.duty_eq (ha : x.abortList = []) (hs : x.state ≠ .free) : x.duty l =
    ((x.dutyOpened l).or <| (x.dutySegment l).or <| (x.dutyStore l).or <| (x.dutyRecipe l).or (x.dutyDrained l)) := by
  rw [Lane.duty, Lane.dutyAbort_eq_none.2 ha]
  exact if_neg hs

/-- At the end of the drain only CLOSED or PARKED is left to report (R128). -/
theorem Lane.duty_eq_drained (ha : x.abortList = []) (hs : x.state ≠ .free) (ho : x.openedOwed = false)
    (hw : x.window = []) (hq : x.segments = []) : x.duty l = x.dutyDrained l := by
  have hdone : ¬x.HeadDone := fun ⟨d, rest, hd, _⟩ => by rw [hq] at hd; cases hd
  rw [Lane.duty_eq ha hs, Lane.dutyOpened_eq_none.2 ho, Lane.dutySegment_eq_none.2 hdone,
    Lane.dutyStore_eq_none.2 (by simp [hw]), Lane.dutyRecipe_eq_none.2 (by simp [hw])]
  rfl

/-- The slot whose STORE is owed, the only one of its number, has it reported. -/
theorem Lane.dutyStore_eq_some {a b : List Slot} {y : Slot} {u : Option Reason} (hw : x.window = a ++ y :: b)
    (ha : ∀ z ∈ a, ∀ v, z.state ≠ .storing v true) (hab : ∀ z ∈ a ++ b, z.seq ≠ y.seq)
    (hy : y.state = .storing u true) : x.dutyStore l = some (.store l y.seq y.offset y.length (y.fp.getD 0),
      { x with window := a ++ { y with state := .storing u false } :: b }) := by
  have hfind : x.window.find? Slot.storeOwed = some y := by
    have hnone : a.find? Slot.storeOwed = none := List.find?_eq_none.2 fun z hz => by
      rw [Slot.storeOwed_iff]
      exact fun ⟨v, hv⟩ => ha z hz v hv
    rw [hw, List.find?_append, hnone, List.find?_cons_of_pos (Slot.storeOwed_iff.2 ⟨u, hy⟩)]
    rfl
  have hreport : y.storeReported = { y with state := .storing u false } := by
    rw [Slot.storeReported, hy]
  rw [Lane.dutyStore, hfind]
  dsimp only
  rw [Lane.mapSlot_eq _ hw hab rfl, hreport]

/-- The head slot, RESOLVED, leaves the window and is counted. -/
theorem Lane.dutyRecipe_eq_some {y : Slot} {rest : List Slot} {k : Kind} (hw : x.window = y :: rest)
    (hy : y.state = .resolved k) : x.dutyRecipe l =
      some (.recipe l y.seq y.offset y.length (y.fp.getD 0) k (y.locator.getD 0),
        { x with window := rest, record := x.record.count k y.length }) := by
  rw [Lane.dutyRecipe, hw]
  dsimp only
  rw [Slot.resolvedKind_eq_some.2 hy]

/-- The model makes the first duty of R125 ready. -/
theorem Lane.FirstDuty.duty_eq {r : Report} {x' : Lane} (h : x.FirstDuty l r x') : x.duty l = some (r, x') := by
  cases h with
  | abort r rest ha => rw [Lane.duty, Lane.dutyAbort, ha]
  | opened ha hs ho =>
    rw [Lane.duty_eq ha hs, Lane.dutyOpened, if_pos ho]
    rfl
  | segment d rest ha hs ho hd hdone =>
    rw [Lane.duty_eq ha hs, Lane.dutyOpened_eq_none.2 ho, Option.none_or, Lane.dutySegment, hd]
    dsimp only
    rw [if_pos ((Lane.headDone_iff hd).1 hdone)]
    rfl
  | store a y b u ha hs ho hdone hw hfirst hab hy =>
    rw [Lane.duty_eq ha hs, Lane.dutyOpened_eq_none.2 ho, Lane.dutySegment_eq_none.2 hdone, Option.none_or,
      Option.none_or, Lane.dutyStore_eq_some hw hfirst hab hy]
    rfl
  | recipe y rest k ha hs ho hdone hstore hw hy =>
    have hnone : x.dutyStore l = none := Lane.dutyStore_eq_none.2 fun ⟨z, hz, v, hv⟩ => hstore z hz v hv
    rw [Lane.duty_eq ha hs, Lane.dutyOpened_eq_none.2 ho, Lane.dutySegment_eq_none.2 hdone, hnone, Option.none_or,
      Option.none_or, Option.none_or, Lane.dutyRecipe_eq_some hw hy]
    cases k <;> simp [ParkedRecord.count]
  | closed ha hs ho hw hq =>
    rw [Lane.duty_eq_drained ha (by rw [hs]; exact nofun) ho hw hq, Lane.dutyDrained, hw, hq, hs]
    rfl
  | parked ha hs ho hw hq =>
    rw [Lane.duty_eq_drained ha (by rw [hs]; exact nofun) ho hw hq, Lane.dutyDrained, hw, hq, hs]
    rfl

end Duties

/-! #### LANE_REPORT_READY (R125) -/

section Ready
variable {s : Station} (ha : s.DeadlinesActed) (q : List Instr) (hready : s.lane.ready = none)
include ha hready

theorem exec_laneReportReady_none (h : ∀ l, ¬(s.laneAt l).HasDuty) : exec .laneReportReady ⟨s, q⟩ = .next ⟨s, q⟩ := by
  have hnext : s.nextDutyLane = none :=
    ringFind_eq_none.2 fun l => by rw [Lane.duty_eq_none.2 (h l)]; rfl
  simp [exec, execLaneReportReady, Station.settled_of_acted ha, hready, hnext]

theorem exec_laneReportReady_eq {l : LaneNo} (h : s.nextDutyLane = some l) :
    exec .laneReportReady ⟨s, q⟩ = .next ⟨s.makeLaneReport l, q⟩ := by
  simp [exec, execLaneReportReady, Station.settled_of_acted ha, hready, h]

end Ready

/-- The first lane in turn that has a duty is served next. -/
theorem Station.nextDutyLane_eq_some {s : Station} {l : LaneNo} (hl : (s.laneAt l).HasDuty)
    (hfirst : ∀ k : LaneNo, (k - s.lane.next).val < (l - s.lane.next).val → ¬(s.laneAt k).HasDuty) :
    s.nextDutyLane = some l := by
  refine ringFind_eq_some.2 ⟨?_, fun k hk => ?_⟩
  · exact Option.isSome_iff_ne_none.2 fun hn => Lane.duty_eq_none.1 hn hl
  · have hno := hfirst (s.lane.next + k) (by rwa [add_sub_cancel_left])
    rw [Lane.duty_eq_none.2 hno]
    rfl

/-- Settles O28: the model's first duty is that of R125, for the first lane in turn that has one. -/
theorem laneReportsGoRoundInOrder : Obligations.LaneReportsGoRoundInOrder := by
  refine fun s ha q hready => ⟨exec_laneReportReady_none ha q hready, fun l r x hfirst hduty => ?_⟩
  have hd : (s.laneAt l).duty l = some (r, x) := hduty.duty_eq
  have hl : (s.laneAt l).HasDuty := not_not.1 fun hno => by
    rw [Lane.duty_eq_none.2 hno] at hd
    cases hd
  rw [exec_laneReportReady_eq ha q hready (Station.nextDutyLane_eq_some hl hfirst), Station.makeLaneReport, hd]
  rfl

end Sys2Proof.Machine
end

section
namespace Sys2Proof.Machine

/-! ### The transmit queue stays in order (R138, R139, R144) -/

/-- A frame that joins the transmit queue is one more among those queued. -/
theorem txInsert_perm (f : TxFrame) (q : List TxFrame) : (txInsert f q).Perm (f :: q) := by
  induction q with
  | nil => exact .refl _
  | cons g q ih =>
    rw [txInsert]
    split
    · exact (ih.cons g).trans (.swap f g q)
    · exact .refl _

/-- It keeps the queue in order of class. -/
theorem txInsert_ordered {f : TxFrame} {q : List TxFrame}
    (h : q.Pairwise fun g k => g.frame.body.cls ≤ k.frame.body.cls) :
    (txInsert f q).Pairwise fun g k => g.frame.body.cls ≤ k.frame.body.cls := by
  induction q with
  | nil => exact .cons nofun .nil
  | cons g q ih =>
    obtain ⟨hg, hq⟩ := List.pairwise_cons.1 h
    rw [txInsert]
    split
    · rename_i hle
      refine .cons (fun k hk => ?_) (ih hq)
      rcases List.mem_cons.1 ((txInsert_perm f q).mem_iff.1 hk) with rfl | hk
      · exact hle
      · exact hg k hk
    · rename_i hlt
      have hfg : f.frame.body.cls ≤ g.frame.body.cls := BitVec.le_of_lt (BitVec.not_le.1 hlt)
      refine .cons (fun k hk => ?_) h
      rcases List.mem_cons.1 hk with rfl | hk
      · exact hfg
      · exact BitVec.le_trans hfg (hg k hk)

theorem Station.driverOn_eq_false_iff {s : Station} : s.driverOn = false ↔ ∀ y ∈ s.bus.tx, y.mark = .waiting := by
  simp [Station.driverOn]

namespace Bus.TransmitSound
variable {b c : Bus}

theorem of_tx (h : b.TransmitSound) (e : c.tx = b.tx) : c.TransmitSound where
  ordered := e ▸ h.ordered
  produced := e ▸ h.produced
  attempts := e ▸ h.attempts
  oneOnLine := e ▸ h.oneOnLine

/-- There is no second frame on the line. -/
theorem onLine_unique (h : b.TransmitSound) {x y : TxFrame} (hx : x ∈ b.tx) (hy : y ∈ b.tx) (hmx : x.mark ≠ .waiting)
    (hmy : y.mark ≠ .waiting) : x = y := by
  have hone := h.oneOnLine
  have hx' := (List.mem_filter (p := fun f : TxFrame => f.mark != .waiting)).2 ⟨hx, bne_iff_ne.2 hmx⟩
  have hy' := (List.mem_filter (p := fun f : TxFrame => f.mark != .waiting)).2 ⟨hy, bne_iff_ne.2 hmy⟩
  generalize (b.tx.filter fun f => f.mark != .waiting) = l at hone hx' hy'
  match l, hone with
  | [z], _ => rw [List.mem_singleton.1 hx', List.mem_singleton.1 hy']

/-- Frames may leave. -/
theorem of_sublist (h : b.TransmitSound) (e : c.tx.Sublist b.tx) : c.TransmitSound where
  ordered := h.ordered.sublist e
  produced f hf := h.produced f (e.subset hf)
  attempts f hf := h.attempts f (e.subset hf)
  oneOnLine := (e.filter _).length_le.trans h.oneOnLine

/-- Frames may leave or change, where each stays the frame of its producer, within its attempts, and none that waits
comes to be on the line. -/
theorem of_filterMap (h : b.TransmitSound) {g : TxFrame → Option TxFrame}
    (hg : ∀ x ∈ b.tx, ∀ y, g x = some y → y.frame = x.frame ∧ y.producer = x.producer ∧ y.attempts ≤ 3 ∧
      (x.mark = .waiting → y.mark = .waiting)) (e : c.tx = b.tx.filterMap g) : c.TransmitSound where
  ordered := by
    rw [e, List.pairwise_filterMap]
    refine List.Pairwise.imp_of_mem (fun {x y} hx hy hle x' hx' y' hy' => ?_) h.ordered
    rw [(hg x hx x' hx').1, (hg y hy y' hy').1]
    exact hle
  produced y hy := by
    obtain ⟨x, hx, hxy⟩ := List.mem_filterMap.1 (e ▸ hy)
    obtain ⟨hframe, hproducer, -⟩ := hg x hx y hxy
    rw [hframe, hproducer]
    exact h.produced x hx
  attempts y hy := by
    obtain ⟨x, hx, hxy⟩ := List.mem_filterMap.1 (e ▸ hy)
    exact (hg x hx y hxy).2.2.1
  oneOnLine := by
    rw [e, ← List.countP_eq_length_filter, List.countP_filterMap]
    refine Nat.le_trans ?_ h.oneOnLine
    rw [← List.countP_eq_length_filter]
    refine List.countP_mono_left fun x hx hy => ?_
    cases hxy : g x with
    | none => simp [hxy] at hy
    | some y =>
      have hmark := (hg x hx y hxy).2.2.2
      simp only [hxy, Option.map_some, Option.getD_some, bne_iff_ne] at hy ⊢
      exact mt hmark hy

/-- A waiting frame of its producer's class joins. -/
theorem insert (h : b.TransmitSound) {f : TxFrame} (hp : f.producer.gives f.frame.body.cls) (ha : f.attempts ≤ 3)
    (hm : f.mark = .waiting) (e : c.tx = txInsert f b.tx) : c.TransmitSound where
  ordered := e ▸ txInsert_ordered h.ordered
  produced g hg := by
    rcases List.mem_cons.1 ((txInsert_perm f b.tx).mem_iff.1 (e ▸ hg)) with rfl | hg
    · exact hp
    · exact h.produced g hg
  attempts g hg := by
    rcases List.mem_cons.1 ((txInsert_perm f b.tx).mem_iff.1 (e ▸ hg)) with rfl | hg
    · exact ha
    · exact h.attempts g hg
  oneOnLine := by
    have hlen := ((txInsert_perm f b.tx).filter fun g => g.mark != .waiting).length_eq
    rw [e, hlen, List.filter_cons_of_neg (by simp [hm])]
    exact h.oneOnLine

/-- The first frame comes on the line where none is there. -/
theorem marked (h : b.TransmitSound) (hw : ∀ y ∈ b.tx, y.mark = .waiting) (e : c.tx = markFirst b.tx) :
    c.TransmitSound := by
  cases hq : b.tx with
  | nil => exact h.of_tx (by rw [e, hq]; rfl)
  | cons x xs =>
    rw [hq] at hw
    replace e : c.tx = { x with mark := .onLine } :: xs := by rw [e, hq]; rfl
    obtain ⟨ordered, produced, attempts, -⟩ := h
    rw [hq] at ordered produced attempts
    have hnone : (xs.filter fun f => f.mark != .waiting) = [] :=
      List.filter_eq_nil_iff.2 fun y hy => by simp [hw y (List.mem_cons_of_mem x hy)]
    refine ⟨?_, ?_, ?_, ?_⟩ <;> rw [e]
    · exact .cons (List.pairwise_cons.1 ordered).1 (List.pairwise_cons.1 ordered).2
    · exact List.forall_mem_cons.2 (List.forall_mem_cons.1 produced)
    · exact List.forall_mem_cons.2 (List.forall_mem_cons.1 attempts)
    · rw [List.filter_cons_of_pos (by rfl), hnone]
      exact Nat.le_refl 1

end Bus.TransmitSound

/-! #### What touches the transmit queue -/

@[simp] theorem Station.deliverInbound_tx (s : Station) : s.deliverInbound.bus.tx = s.bus.tx := by
  unfold Station.deliverInbound; (repeat' split) <;> rfl

@[simp] theorem Station.dispatchRequest_tx (s : Station) : s.dispatchRequest.bus.tx = s.bus.tx := by
  unfold Station.dispatchRequest; (repeat' split) <;> simp

@[simp] theorem Station.admitSource_tx (x : Source) (s : Station) : (s.admitSource x).bus.tx = s.bus.tx := by
  unfold Station.admitSource; dsimp only; (repeat' split) <;> simp

@[simp] theorem Station.placeFrame_tx (f : Frame) (d : Bool) (s : Station) : (s.placeFrame f d).bus.tx = s.bus.tx := by
  unfold Station.placeFrame; split <;> rfl

@[simp] theorem Station.checkFrame_tx (cells : List Bool) (s : Station) : (s.checkFrame cells).bus.tx = s.bus.tx := by
  unfold Station.checkFrame Station.goodFrame; dsimp only; (repeat' split) <;> simp

/-- The commands that may touch the transmit queue once the deadlines are acted on. -/
def Instr.touchesTransmit : Instr → Bool
  | .coldReset | .warmReset | .start | .scrubWriteDone | .answerHandOn | .requestHandOn _ | .contention _ _
  | .attemptEnd _ _ | .inboundDispatch | .peerSilent | .beaconTaken => true
  | _ => false

/-- Every other command leaves it as it is. -/
theorem exec_tx {c : Instr} (hd : Instr.isDeadlineRow c = false) (hc : Instr.touchesTransmit c = false) {s t : State}
    (h : exec c s = .next t) : t.station.bus.tx = s.station.settled.bus.tx := by
  cases c with
  | coldRelease => simp [execColdRelease_frame h]
  | stagingWrite => simp [execStagingWrite_frame h]
  | reportWordRead => simp [execReportWordRead_frame h]
  | statusWordRead => simp [execStatusWordRead_frame h]
  | commandWordWrite => simp [execCommandWordWrite_frame h]
  | poolSet => simp [execPoolSet_frame h]
  | configure => simp [execConfigure_frame h]
  | stats => simp [execStats_frame h]
  | unknownCommand => simp [execUnknownCommand_frame h]
  | openLane => simp [execOpenLane_frame h]
  | resume => simp [execResume_frame h]
  | segment => simp [execSegment_frame h]
  | stored => simp [execStored_frame h]
  | storeFailed => simp [execStoreFailed_frame h]
  | abort => simp [execAbort_frame h]
  | close => simp [execClose_frame h]
  | suspend => simp [execSuspend_frame h]
  | release => simp [execRelease_frame h]
  | leaseTick => simp [execLeaseTick_frame h]
  | leaseExpiry => simp [execLeaseExpiry_frame h]
  | ask => simp [execAsk_frame h]
  | commit => simp [execCommit_frame h]
  | drop => simp [execDrop_frame h]
  | releaseItem => simp [execReleaseItem_frame h]
  | peerLost => simp [execPeerLost_frame h]
  | peerRestarted => simp [execPeerRestarted_frame h]
  | bucketWriteDone => simp [execBucketWriteDone_frame h]
  | burstIssue => simp [execBurstIssue_frame h]
  | fetchReadCompletion => simp [execFetchReadCompletion_frame h]
  | fetchTimeout => simp [execFetchTimeout_frame h]
  | burstCompletion => simp [execBurstCompletion_frame h]
  | digestStart => simp [execDigestStart_frame h]
  | digestCompletion => simp [execDigestCompletion_frame h]
  | tagGrant => simp [execTagGrant_frame h]
  | exchangeReportReady => simp [execExchangeReportReady_frame h]
  | laneReportReady => simp [execLaneReportReady_frame h]
  | reportAppend => simp [execReportAppend_frame h]
  | frameAbandoned => simp [execFrameAbandoned_frame h]
  | peerJoin => simp [execPeerJoin_frame h]
  | conflictReport => simp [execConflictReport_frame h]
  | warmRelease => simp [execWarmRelease_frame h]
  | yieldClear | frameReceived | workQueueAdmit =>
    cases h
    dsimp only
    (repeat' split) <;> simp
  | leaseDeadline | answerDeadline | holdDeadline | orphanHoldDeadline | silenceDeadline | beaconDue => cases hd
  | _ => cases hc

/-- The station's transmit queue is sound (R138, R139, R144). -/
def Station.TransmitSound (s : Station) : Prop := s.bus.TransmitSound

namespace Station.TransmitSound
variable {s t : Station}

theorem of_tx (h : s.TransmitSound) (e : t.bus.tx = s.bus.tx := by simp) : t.TransmitSound :=
  Bus.TransmitSound.of_tx h e

/-- A frame given with attempt count 0 by a producer of its class (R138). -/
theorem txPush (h : s.TransmitSound) {f : Frame} {w : TxProducer} (hw : w.gives f.body.cls) :
    (s.txPush f w).TransmitSound :=
  Bus.TransmitSound.insert h (f := ⟨f, w, 0, .waiting⟩) hw (Nat.zero_le 3) rfl rfl

theorem beaconFallsDue (h : s.TransmitSound) : s.beaconFallsDue.TransmitSound := by
  unfold Station.beaconFallsDue
  split
  · refine of_tx (h.txPush (w := .roster) ?_) rfl
    exact (rfl : (3 : BitVec 2) = 3)
  · exact h

theorem enterRunning (h : s.TransmitSound) (f : Bool) : (s.enterRunning f).TransmitSound := by
  have hd : ({ s with
      control.state := .running
      roster.beaconDeadline := some (s.clock.now + Config.beaconTicks) } : Station).TransmitSound := h
  exact hd.beaconFallsDue.of_tx rfl

/-- A purge takes waiting frames out and marks the one on the line (R150). -/
theorem purge (h : s.TransmitSound) (p : StationNo) : (s.purge p).TransmitSound := by
  refine Bus.TransmitSound.of_filterMap h (fun x hx y hy => ?_) rfl
  have ha := h.attempts x hx
  split at hy
  · split at hy <;> cases hy
    exact ⟨rfl, rfl, ha, fun hw => absurd hw ‹_›⟩
  · cases hy
    exact ⟨rfl, rfl, ha, id⟩

theorem removeOnLine (h : s.TransmitSound) : s.removeOnLine.TransmitSound :=
  Bus.TransmitSound.of_sublist h List.eraseP_sublist

/-- The frame on the line, the only one, waits again with one failed attempt more (R144). -/
theorem retryOnLine (h : s.TransmitSound) {x : TxFrame} (hx : (s.bus.tx.find? fun f => f.mark != .waiting) = some x)
    (ha : x.attempts < 3) : s.retryOnLine.TransmitSound := by
  have hon : x.mark ≠ .waiting := bne_iff_ne.1 (List.find?_some (p := fun f : TxFrame => f.mark != .waiting) hx)
  refine Bus.TransmitSound.of_filterMap h (g := fun f => some (if f.mark = .waiting then f
    else { f with attempts := f.attempts + 1, mark := .waiting })) (fun y hy z hz => ?_) (by
      rw [List.filterMap_eq_map']; rfl)
  cases hz
  split
  · exact ⟨rfl, rfl, h.attempts y hy, id⟩
  · rw [Bus.TransmitSound.onLine_unique h hy (List.mem_of_find?_eq_some hx) ‹_› hon]
    exact ⟨rfl, rfl, ha, fun _ => rfl⟩

theorem endAttempt (h : s.TransmitSound) {x : TxFrame} (hx : (s.bus.tx.find? fun f => f.mark != .waiting) = some x)
    (ok : Bool) : (s.endAttempt x ok).TransmitSound := by
  unfold Station.endAttempt
  split
  · exact h.removeOnLine.of_tx
  split
  · exact h.removeOnLine
  split
  · exact h.retryOnLine hx ‹_›
  · exact h.removeOnLine.of_tx

/-- A request's frame is of class 1 or 2. -/
theorem deliverBus (h : s.TransmitSound) (i : EntryIndex) : (s.deliverBus i).TransmitSound := by
  unfold Station.deliverBus
  split
  · rename_i kind _ _
    refine of_tx (h.txPush (f := s.requestFrame i kind) (w := .exchange) ?_) rfl
    cases kind with
    | ask => exact .inr rfl
    | commit | drop | release => exact .inl rfl
  · exact h

theorem handOnBus (h : s.TransmitSound) (i : EntryIndex) : (s.handOnBus i).TransmitSound := by
  unfold Station.handOnBus
  (repeat' split)
  · exact h.of_tx
  · exact h.deliverBus i
  · exact h

/-- An answer's frame is of class 0. -/
theorem handOnAnswer (h : s.TransmitSound) (a : Answer) (rest : List Answer) :
    (s.handOnAnswer a rest).TransmitSound := by
  unfold Station.handOnAnswer
  split
  · exact h.of_tx
  split
  · exact h.of_tx rfl
  split
  · refine of_tx (h.txPush (f := answerFrame s.own a) (w := .index) ?_) rfl
    exact (rfl : (0 : BitVec 2) = 0)
  · exact h

theorem cleanupPeer (h : s.TransmitSound) (r : Bool) (p : StationNo) : (s.cleanupPeer r p).TransmitSound := by
  have hc : (s.cleanExchange r p).TransmitSound := h.of_tx
  exact (hc.purge p).of_tx (t := s.cleanupPeer r p) (by simp [Station.cleanupPeer])

theorem reportPeer (h : s.TransmitSound) (v : PeerEvent) (p : StationNo) : (s.reportPeer v p).TransmitSound := h

theorem silencePeer (h : s.TransmitSound) (p : StationNo) : (s.silencePeer p).TransmitSound := by
  have hu (x : Peer) : (s.setPeer p x).TransmitSound := h
  exact ((hu _).cleanupPeer false p).reportPeer .silent p

theorem decideBeacon (h : s.TransmitSound) (p : StationNo) (f : Bool) (z : BitVec 4) :
    (s.decideBeacon p f z).TransmitSound := by
  unfold Station.decideBeacon
  dsimp only
  (repeat' split)
  · exact h
  · exact h
  · exact h
  · exact (h.cleanupPeer true p).reportPeer _ p
  · exact h

theorem takeBeacon (h : s.TransmitSound) : s.takeBeacon.TransmitSound := by
  unfold Station.takeBeacon
  (repeat' split)
  · refine decideBeacon ?_ _ _ _
    exact h.of_tx rfl
  all_goals exact h

theorem decideStart (h : s.TransmitSound) {e : CmdEntry} (ht : s.decideStart e = some t) : t.TransmitSound := by
  unfold Station.decideStart Station.startTaken at ht
  dsimp only at ht
  repeat' split at ht
  case isFalse.isFalse.isTrue.isFalse =>
    cases ht
    exact enterRunning (s := { s with control.lock := true, clock := { Clock.reset with running := true } }) h false
  all_goals cases ht
  all_goals exact h.of_tx rfl

theorem scrubDone (h : s.TransmitSound) (b : Nat) : (s.scrubDone b).TransmitSound := by
  unfold Station.scrubDone
  dsimp only
  split
  · exact h.of_tx rfl
  · exact enterRunning (s := { s with index.table := s.index.table.scrubWrite b, index.scrub := none }) h true

theorem actDeadline (h : s.TransmitSound) (d : Deadline) : (s.actDeadline d).TransmitSound := by
  cases d with
  | claim p => exact h.of_tx (t := s.markDue p)
  | entry i => exact h.of_tx (t := s.entryExpired i)
  | peer p => exact h.of_tx (t := s.markSilence p)
  | beacon =>
    change s.beaconExpired.TransmitSound
    unfold Station.beaconExpired
    (repeat' split)
    · exact beaconFallsDue (s := { s with roster.beaconDeadline := _ }) h
    all_goals exact h

end Station.TransmitSound

/-! #### Every step keeps it so -/

theorem exec_keeps_transmitSound {c : Instr} {s t : State} (hd : Instr.isDeadlineRow c = false)
    (ha : s.station.DeadlinesActed) (hs : s.station.TransmitSound) (h : exec c s = .next t) :
    t.station.TransmitSound := by
  rw [← Station.settled_of_acted ha] at hs
  cases c with
  | coldReset => cases h; exact Bus.reset_transmitSound
  | warmReset =>
    cases h
    dsimp only
    split
    · exact hs
    · exact Bus.reset_transmitSound
  | start =>
    cases h
    dsimp only
    rcases s.station.settled.takeHead_cases 3 Station.decideStart with e | ⟨e, rest, -, -, -, hy⟩
    · rw [e]; exact hs
    · exact Station.TransmitSound.decideStart (s := { s.station.settled with port.fifo := rest }) hs hy
  | scrubWriteDone =>
    cases h
    dsimp only
    (repeat' split)
    · exact hs.scrubDone _
    all_goals exact hs
  | answerHandOn =>
    cases h
    dsimp only
    (repeat' split)
    · exact hs.handOnAnswer _ _
    all_goals exact hs
  | requestHandOn path =>
    cases h
    dsimp only
    split
    · cases path with
      | self => exact hs.of_tx
      | bus => exact hs.handOnBus _
    · exact hs
  | contention idle rivals =>
    cases h
    dsimp only
    split
    · split
      · rename_i hc
        split
        · refine Bus.TransmitSound.marked hs (Station.driverOn_eq_false_iff.1 ?_) rfl
          simp only [Station.contends, Bool.and_eq_true, Bool.not_eq_true'] at hc
          exact hc.2
        · exact hs.of_tx rfl
      · exact hs
    · exact hs
  | attemptEnd levels acknowledged =>
    cases h
    dsimp only
    split
    · rename_i x hx
      split
      all_goals
        refine Station.TransmitSound.endAttempt ?_ ?_ _
        · exact hs.of_tx rfl
        · exact hx
    · exact hs
  | peerSilent =>
    cases h
    dsimp only
    (repeat' split)
    · exact hs
    · refine Station.TransmitSound.silencePeer ?_ _
      exact hs.of_tx rfl
    · exact hs
  | beaconTaken => cases h; exact hs.takeBeacon
  | inboundDispatch =>
    cases h
    dsimp only
    (repeat' split)
    · exact hs.of_tx
    · exact hs.takeBeacon
    all_goals exact hs.of_tx
  | leaseDeadline | answerDeadline | holdDeadline | orphanHoldDeadline | silenceDeadline | beaconDue => cases hd
  | _ => exact hs.of_tx (exec_tx hd rfl h)

theorem transmitSound_keptByDeadlines : KeptByDeadlines Station.TransmitSound := fun s d ds _ h =>
  Station.TransmitSound.actDeadline (s := { s with clock.reached := ds }) h d

/-- Settles O8. -/
theorem transmitQueueStaysInOrder : Obligations.TransmitQueueStaysInOrder := fun _ _ hs h =>
  step_keeps (P := Station.TransmitSound) (fun _ h => h) transmitSound_keptByDeadlines (fun _ _ h => h.of_tx)
    (fun _ _ _ hd ha hs h => exec_keeps_transmitSound hd ha hs h) hs h

end Sys2Proof.Machine
end

section
namespace Sys2Proof.Machine

/-! ### Frames received (R142, R143, R146, R147, R155, R159) -/

theorem Station.running_iff {s : Station} : s.running = true ↔ s.control.state = .running := by
  simp [Station.running]

/-- The station hears a frame: RUNNING, an idle gap before the start mark, nothing of its own on the line. -/
theorem Station.receives_iff {s : Station} {idle : Nat} : s.receives idle = true ↔
    s.control.state = .running ∧ 2 ≤ idle ∧ ∀ y ∈ s.bus.tx, y.mark = .waiting := by
  rw [Station.receives, Bool.and_eq_true, Bool.and_eq_true, Bool.not_eq_true', Station.driverOn_eq_false_iff,
    decide_eq_true_iff, Station.running_iff, and_assoc]
  rfl

/-- The model's sign of life is that of the statements (R155). -/
theorem Station.signOfLife_eq (p : StationNo) (s : Station) : s.signOfLife p = s.heardFrom p := by
  have hne (x : PeerState) : (x != .serving) = decide (x ≠ .serving) := by cases x <;> rfl
  unfold Station.signOfLife Station.heardFrom
  rw [← hne]

/-- The model's owing of a conflict report is that of the statements (R159). -/
theorem Roster.oweConflict_eq (c : OwedConflict) (r : Roster) : r.oweConflict c = { r with
    conflictOwed := if r.conflictFlag = true then r.conflictOwed else some (r.conflictOwed.getD c) } := by
  obtain ⟨_, _, _, _, owed, flag, _, _, _⟩ := r
  cases flag <;> cases owed <;> rfl

section Checks
variable {s : Station} {cells : List Bool}

theorem Station.checkFrame_none (h : parseFrame cells = none) : s.checkFrame cells = s.counted 2 := by
  rw [Station.checkFrame, h]
  rfl

variable {f : Frame} (h : parseFrame cells = some f)
include h

/-- A sender number not below the cluster size is a conflict (R146). -/
theorem Station.checkFrame_outside (hs : s.control.straps.clusterSize.toNat ≤ f.sender.toNat) :
    s.checkFrame cells = s.counted 22 := by
  rw [Station.checkFrame, h]
  exact if_pos (BitVec.le_def.2 hs)

variable (hs : f.sender.toNat < s.control.straps.clusterSize.toNat)
include hs

/-- So is the station's own number, whose report is owed (R159). -/
theorem Station.checkFrame_own (ho : f.sender = s.control.straps.number) :
    s.checkFrame cells = (s.counted 22).conflictFound .ownNumber := by
  rw [Station.checkFrame, h, Station.conflictFound, ← Roster.oweConflict_eq]
  exact (if_neg fun hle => Nat.not_le.2 hs (BitVec.le_def.1 hle)).trans (if_pos ho)

variable (ho : f.sender ≠ s.control.straps.number)
include ho

theorem Station.checkFrame_good : s.checkFrame cells = s.goodFrame f := by
  rw [Station.checkFrame, h]
  exact (if_neg fun hle => Nat.not_le.2 hs (BitVec.le_def.1 hle)).trans (if_neg ho)

end Checks

section Place
variable {s : Station} {f : Frame}

/-- A good frame for another station is set aside. -/
theorem Station.goodFrame_other (hb : f.dest ≠ 15) (ho : f.dest ≠ s.control.straps.number) :
    s.goodFrame f = s.heardFrom f.sender := by
  rw [← Station.signOfLife_eq]
  exact (if_neg hb).trans (if_neg ho)

/-- A beacon, and a frame for this station, is placed, the latter acknowledged. -/
theorem Station.goodFrame_placed (h : f.dest = 15 ∨ f.dest = s.control.straps.number) :
    s.goodFrame f = (s.heardFrom f.sender).placeFrame f (decide (f.dest ≠ 15)) := by
  rw [← Station.signOfLife_eq]
  by_cases hb : f.dest = 15
  · rw [decide_eq_false (not_not.2 hb)]
    exact if_pos hb
  · rw [decide_eq_true hb]
    exact (if_neg hb).trans (if_pos (h.resolve_left hb))

theorem Station.placeFrame_full (h : 16 ≤ s.bus.inbound.length) (d : Bool) : s.placeFrame f d = s.counted 3 :=
  if_neg (Nat.not_lt.2 h)

theorem Station.placeFrame_room (h : s.bus.inbound.length < 16) (d : Bool) : s.placeFrame f d =
    ({ s with bus := { s.bus with inbound := s.bus.inbound ++ [f], ackDriven := d } } : Station).counted 1 :=
  if_pos h

end Place

/-- Settles O53. -/
theorem receivedFramesPlaced : Obligations.ReceivedFramesPlaced := by
  intro s ha q idle cells hears t leads
  have hleads (hh : hears) {u : Station} (hu : (t false).checkFrame cells = u) : leads u := by
    subst hu
    simp only [leads, exec, execFrameReceived, runEvent_eq, Station.settled_of_acted ha,
      if_pos (Station.receives_iff.2 hh)]
    rfl
  refine ⟨fun hn => ?_, fun hh => ?_, fun hh hp => hleads hh (Station.checkFrame_none hp), fun f hh hp =>
    ⟨fun hs => hleads hh (Station.checkFrame_outside hp hs), fun hs ho => hleads hh (Station.checkFrame_own hp hs ho),
      fun hs ho => ?_⟩⟩
  · have hr : ¬s.receives idle = true := mt Station.receives_iff.1 hn
    simp only [leads, exec, execFrameReceived, execFrameAbandoned, runEvent_eq, Station.settled_of_acted ha, if_neg hr,
      and_self]
  · simp only [exec, execFrameAbandoned, runEvent_eq, Station.settled_of_acted ha, if_pos (Station.receives_iff.2 hh)]
    rfl
  · have hgood : (t false).checkFrame cells = (t false).goodFrame f := Station.checkFrame_good hp hs ho
    refine ⟨fun hb hn => hleads hh (hgood.trans (Station.goodFrame_other hb hn)), fun hto => ?_⟩
    have hplaced := hgood.trans (Station.goodFrame_placed hto)
    exact ⟨fun hfull => hleads hh (hplaced.trans (Station.placeFrame_full (s := (t false).heardFrom f.sender) hfull _)),
      fun hroom => hleads hh (hplaced.trans (Station.placeFrame_room (s := (t false).heardFrom f.sender) hroom _))⟩

end Sys2Proof.Machine
end

section
namespace Sys2Proof.Machine

/-! ### Arbitration over the precedence cells (R136, R139, R140) -/

theorem Frame.precedence_toNat (f : Frame) : f.precedence.toNat = f.value := by
  rw [Frame.precedence, BitVec.toNat_append, ← Nat.shiftLeft_add_eq_or_of_lt f.sender.isLt, Nat.shiftLeft_eq,
    Nat.mul_comm, Frame.value]

/-- Two precedence values agree in their cells before cell `k`. -/
def AgreeBefore (k : Nat) (x y : BitVec 6) : Prop := ∀ j < k, x.getMsbD j = y.getMsbD j

theorem AgreeBefore.succ {k : Nat} {x y : BitVec 6} (h : AgreeBefore k x y) (hk : x.getMsbD k = y.getMsbD k) :
    AgreeBefore (k + 1) x y := fun j hj => by
  rcases Nat.lt_succ_iff_lt_or_eq.1 hj with hj | rfl
  · exact h j hj
  · exact hk

theorem getMsbD_eq_testBit {x : BitVec 6} {k : Nat} (hk : k < 6) : x.getMsbD k = x.toNat.testBit (5 - k) := by
  simp [BitVec.getMsbD, BitVec.getLsbD, hk]

/-- Below the cells that agree, the values' quotients are equal. -/
theorem AgreeBefore.div_eq {k : Nat} {x y : BitVec 6} (hk : k ≤ 6) (h : AgreeBefore k x y) :
    x.toNat / 2 ^ (6 - k) = y.toNat / 2 ^ (6 - k) := by
  refine Nat.eq_of_testBit_eq fun i => ?_
  rw [Nat.testBit_div_two_pow, Nat.testBit_div_two_pow]
  by_cases hi : i < k
  · have hj := h (k - 1 - i) (by omega)
    rwa [getMsbD_eq_testBit (by omega), getMsbD_eq_testBit (by omega),
      show 5 - (k - 1 - i) = i + (6 - k) by omega] at hj
  · have hbig : 6 ≤ i + (6 - k) := by omega
    rw [Nat.testBit_lt_two_pow (x.isLt.trans_le (Nat.pow_le_pow_right (by decide) hbig)),
      Nat.testBit_lt_two_pow (y.isLt.trans_le (Nat.pow_le_pow_right (by decide) hbig))]

/-- The first differing cell decides the order: the lower value has the 0 there. -/
theorem AgreeBefore.lt {k : Nat} {x y : BitVec 6} (h : AgreeBefore k x y) (hk : k < 6) (hx : x.getMsbD k = false)
    (hy : y.getMsbD k = true) : x.toNat < y.toNat := by
  rw [getMsbD_eq_testBit hk] at hx hy
  refine Nat.lt_of_testBit (5 - k) hx hy fun j hj => ?_
  by_cases h6 : j < 6
  · have := h (5 - j) (by omega)
    rwa [getMsbD_eq_testBit (by omega), getMsbD_eq_testBit (by omega), show 5 - (5 - j) = j by omega] at this
  · rw [Nat.testBit_lt_two_pow (x.isLt.trans_le (Nat.pow_le_pow_right (by decide) (by omega))),
      Nat.testBit_lt_two_pow (y.isLt.trans_le (Nat.pow_le_pow_right (by decide) (by omega)))]

/-- Values that agree in every cell are equal. -/
theorem AgreeBefore.eq {x y : BitVec 6} (h : AgreeBefore 6 x y) : x = y :=
  BitVec.eq_of_getMsbD_eq fun i hi => h i hi

section Arbitrate
variable {mine : BitVec 6} {k : Nat} {rivals : List (BitVec 6)}

/-- The value loses at a cell where it has a 1 and a rival left has a 0. -/
theorem arbitrate_loses (rest : List Nat) (hm : mine.getMsbD k = true) {r : BitVec 6} (hr : r ∈ rivals)
    (h0 : r.getMsbD k = false) : arbitrate mine (k :: rest) rivals = some k := by
  have hall : rivals.all (·.getMsbD k) = false := List.all_eq_false.2 ⟨r, hr, by simp [h0]⟩
  simp [arbitrate, hm, hall]

/-- At any other cell it goes on, and so do the rivals of the same cell. -/
theorem arbitrate_goes_on (rest : List Nat) (h : mine.getMsbD k = true → ∀ r ∈ rivals, r.getMsbD k = true) :
    arbitrate mine (k :: rest) rivals =
      arbitrate mine rest (rivals.filter fun r => r.getMsbD k == mine.getMsbD k) := by
  have hline : (mine.getMsbD k && rivals.all (·.getMsbD k)) = mine.getMsbD k := by
    cases hm : mine.getMsbD k with
    | false => rfl
    | true => exact List.all_eq_true.2 (h hm)
  simp only [arbitrate, hline, Bool.and_not_self, Bool.false_eq_true, if_false]

/-- The rivals that go on agree in one cell more. -/
theorem agree_of_mem_filter (h : ∀ r ∈ rivals, AgreeBefore k r mine) {r : BitVec 6}
    (hr : r ∈ rivals.filter fun r => r.getMsbD k == mine.getMsbD k) : AgreeBefore (k + 1) r mine := by
  obtain ⟨hr, he⟩ := List.mem_filter.1 hr
  exact (h r hr).succ (beq_iff_eq.1 he)

/-- A value that no rival left is below wins. -/
theorem arbitrate_eq_none (n : Nat) (hk : k + n = 6) (h : ∀ r ∈ rivals, AgreeBefore k r mine)
    (hle : ∀ r ∈ rivals, mine.toNat ≤ r.toNat) : arbitrate mine (List.range' k n) rivals = none := by
  induction n generalizing k rivals with
  | zero => rfl
  | succ n ih =>
    have hones : mine.getMsbD k = true → ∀ r ∈ rivals, r.getMsbD k = true := fun hm r hr =>
      Bool.eq_true_of_not_eq_false fun h0 => Nat.not_lt.2 (hle r hr) ((h r hr).lt (by omega) h0 hm)
    rw [List.range'_succ, arbitrate_goes_on _ hones]
    exact ih (by omega) (fun r hr => agree_of_mem_filter h hr) fun r hr => hle r (List.mem_of_mem_filter hr)

/-- A value above the lowest rival left loses at the first cell in which the two differ. -/
theorem arbitrate_eq_some (n : Nat) (hk : k + n = 6) (h : ∀ r ∈ rivals, AgreeBefore k r mine) {low : BitVec 6}
    (hlow : low ∈ rivals) (hmin : ∀ r ∈ rivals, low.toNat ≤ r.toNat) (hlt : low.toNat < mine.toNat) :
    ∃ cell, cell < 6 ∧ AgreeBefore cell low mine ∧ low.getMsbD cell = false ∧ mine.getMsbD cell = true ∧
      arbitrate mine (List.range' k n) rivals = some cell := by
  induction n generalizing k rivals with
  | zero =>
    obtain rfl : k = 6 := hk
    rw [(h low hlow).eq] at hlt
    exact absurd hlt (Nat.lt_irrefl _)
  | succ n ih =>
    rw [List.range'_succ]
    by_cases hones : mine.getMsbD k = true → ∀ r ∈ rivals, r.getMsbD k = true
    · rw [arbitrate_goes_on _ hones]
      have hsame : low.getMsbD k = mine.getMsbD k := by
        cases hm : mine.getMsbD k with
        | true => exact hones hm low hlow
        | false =>
          refine Bool.eq_false_of_not_eq_true fun h1 => Nat.lt_asymm hlt ?_
          exact AgreeBefore.lt (fun j hj => ((h low hlow) j hj).symm) (by omega) hm h1
      exact ih (by omega) (fun r hr => agree_of_mem_filter h hr) (List.mem_filter.2 ⟨hlow, beq_iff_eq.2 hsame⟩)
        fun r hr => hmin r (List.mem_of_mem_filter hr)
    · obtain ⟨hm, hzero⟩ := Classical.not_imp.1 hones
      obtain ⟨r, hr, h0⟩ : ∃ r ∈ rivals, r.getMsbD k = false := by simpa using hzero
      have hlow0 : low.getMsbD k = false := Bool.eq_false_of_not_eq_true fun h1 => by
        refine Nat.not_lt.2 (hmin r hr) (AgreeBefore.lt (fun j hj => ?_) (by omega) h0 h1)
        rw [h r hr j hj, h low hlow j hj]
      exact ⟨k, by omega, h low hlow, hlow0, hm, arbitrate_loses _ hm hr h0⟩

end Arbitrate

/-! ### CONTENTION and YIELD_CLEAR (R135, R139, R142) -/

theorem Station.contends_iff {s : Station} {idle : Nat} : s.contends idle = true ↔ s.control.state = .running ∧
    s.bus.tx ≠ [] ∧ s.bus.yield = false ∧ 2 ≤ idle ∧ ∀ y ∈ s.bus.tx, y.mark = .waiting := by
  simp only [Station.contends, Bool.and_eq_true, Bool.not_eq_true', Station.running_iff, decide_eq_true_iff,
    Station.driverOn_eq_false_iff, List.isEmpty_eq_false_iff, and_assoc]
  rfl

section Contention
variable {s : Station} (ha : s.DeadlinesActed) (q : List Instr) {idle : Nat} {rivals : List (BitVec 6)}
include ha

theorem exec_contention_not (h : ¬s.contends idle = true) : exec (.contention idle rivals) ⟨s, q⟩ = .next ⟨s, q⟩ := by
  simp only [exec, execContention, runEvent_eq, Station.settled_of_acted ha, if_neg h]
  split <;> rfl

variable (h : s.contends idle = true) {x : TxFrame} {xs : List TxFrame} (hq : s.bus.tx = x :: xs)
include h hq

theorem exec_contention_wins (hw : arbitrate x.frame.precedence (List.range 6) rivals = none) :
    exec (.contention idle rivals) ⟨s, q⟩ = .next ⟨{ s with bus := { s.bus with
      tx := { x with mark := .onLine } :: xs, sentCells := x.frame.cells } }, q⟩ := by
  simp only [exec, execContention, runEvent_eq, Station.settled_of_acted ha, if_pos h, hq, hw, markFirst]

theorem exec_contention_loses {cell : Nat} (hl : arbitrate x.frame.precedence (List.range 6) rivals = some cell) :
    exec (.contention idle rivals) ⟨s, q⟩ =
      .next ⟨{ s with bus := { s.bus with sentCells := x.frame.cells.take (cell + 1) } }, q⟩ := by
  simp only [exec, execContention, runEvent_eq, Station.settled_of_acted ha, if_pos h, hq, hl]

end Contention

/-- Settles O51. -/
theorem lowestPrecedenceWinsTheLine : Obligations.LowestPrecedenceWinsTheLine := by
  intro s ha q idle rivals
  refine ⟨fun x xs hq hrun hyield hidle hw => ?_, fun hno => exec_contention_not ha q fun hc => ?_, fun h8 => ?_,
    fun h8 => ?_⟩
  · have hc : s.contends idle = true :=
      Station.contends_iff.2 ⟨hrun, hq ▸ List.cons_ne_nil x xs, hyield, hidle, hw⟩
    have hnone : ∀ r ∈ rivals, AgreeBefore 0 r x.frame.precedence := fun _ _ _ => nofun
    rw [← Frame.precedence_toNat]
    refine ⟨fun hle => exec_contention_wins ha q hc hq ?_, fun r hr hmin hlt => ?_⟩
    · rw [List.range_eq_range']
      exact arbitrate_eq_none 6 rfl hnone hle
    · obtain ⟨cell, hcell, hagree, h0, h1, hsome⟩ := arbitrate_eq_some 6 rfl hnone hr hmin hlt
      rw [getMsbD_eq_testBit hcell] at h0 h1
      rw [← List.range_eq_range'] at hsome
      exact ⟨cell, hcell, (hagree.div_eq hcell.le).symm, h1, h0, exec_contention_loses ha q hc hq hsome⟩
  · obtain ⟨hrun, hne, hyield, hidle, hw⟩ := Station.contends_iff.1 hc
    rcases hno with h | h | h | h | ⟨y, hy, hm⟩
    · exact hne h
    · exact h hrun
    · rw [hyield] at h; cases h
    · exact Nat.not_lt.2 hidle h
    · exact hm (hw y hy)
  · simp only [exec, execYieldClear, runEvent_eq, Station.settled_of_acted ha, if_pos (show yieldIdle ≤ idle from h8)]
  · simp only [exec, execYieldClear, runEvent_eq, Station.settled_of_acted ha,
      if_neg (show ¬yieldIdle ≤ idle from Nat.not_le.2 h8)]

end Sys2Proof.Machine
end

section
namespace Sys2Proof.Machine

/-! ### Bit strings read back (R136) -/

theorem natOfBits_append (bits : List Bool) (b : Bool) : natOfBits (bits ++ [b]) = 2 * natOfBits bits + b.toNat := by
  simp [natOfBits]

theorem natOfBits_testBit (bits : List Bool) (i : Nat) : (natOfBits bits).testBit i = bits.reverse[i]?.getD false := by
  induction bits using List.reverseRecOn generalizing i with
  | nil => simp [natOfBits]
  | append_singleton bits b ih =>
    rw [natOfBits_append, List.reverse_append, List.reverse_singleton, List.singleton_append]
    cases i with
    | zero => cases b <;> simp [Nat.testBit_zero]
    | succ i =>
      rw [Nat.testBit_succ, List.getElem?_cons_succ, ← ih i]
      congr 1
      have := b.toNat_lt
      omega

theorem natOfBits_lt (bits : List Bool) : natOfBits bits < 2 ^ bits.length := by
  refine Nat.lt_pow_two_of_testBit _ fun i hi => ?_
  rw [natOfBits_testBit, List.getElem?_eq_none (by simpa using hi)]
  rfl

@[simp] theorem bitsOf_ofBits {w : Nat} {bits : List Bool} (h : bits.length = w) : bitsOf (ofBits w bits) = bits := by
  subst h
  refine List.ext_getElem (bitsOf_length _) fun i hi hi' => ?_
  have hrev : bits.length - 1 - (bits.length - 1 - i) = i := by omega
  have hlt : bits.length - 1 - i < bits.length := by omega
  have hbit : (natOfBits bits).testBit (bits.length - 1 - i) = bits[i] := by
    simp [natOfBits_testBit, hlt, hrev]
  simpa [bitsOf, ofBits, BitVec.getMsbD, BitVec.getLsbD, hi', hlt] using hbit

theorem bitsOf_injective {w : Nat} {x y : BitVec w} (h : bitsOf x = bitsOf y) : x = y :=
  BitVec.eq_of_getMsbD_eq fun i hi => by
    have hx := congrArg (·[i]?) h
    simpa [bitsOf_getElem?, hi] using hx

@[simp] theorem ofBits_bitsOf {w : Nat} (x : BitVec w) : ofBits w (bitsOf x) = x :=
  bitsOf_injective (bitsOf_ofBits (bitsOf_length x))

@[simp] theorem natOfBits_bitsOf {w : Nat} (x : BitVec w) : natOfBits (bitsOf x) = x.toNat := by
  have hlt := natOfBits_lt (bitsOf x)
  rw [bitsOf_length] at hlt
  have hof := congrArg BitVec.toNat (ofBits_bitsOf x)
  rwa [ofBits, BitVec.toNat_ofNat, Nat.mod_eq_of_lt hlt] at hof

theorem bitsOf_append {v w : Nat} (x : BitVec v) (y : BitVec w) : bitsOf (x ++ y) = bitsOf x ++ bitsOf y := by
  refine List.ext_getElem? fun j => ?_
  rw [List.getElem?_append, bitsOf_length]
  simp only [bitsOf_getElem?, BitVec.getMsbD_append]
  by_cases hj : j < v
  · simp [hj, Nat.not_le.2 hj, Nat.lt_add_right w hj]
  · have hle := Nat.not_lt.1 hj
    simp [hj, hle, Nat.sub_lt_iff_lt_add' hle]

/-- A bit string of at least `w` bits begins with the bits of some value. -/
theorem exists_bitsOf_append (w : Nat) {n : Nat} {bits : List Bool} (h : bits.length = w + n) :
    ∃ (x : BitVec w) (rest : List Bool), rest.length = n ∧ bits = bitsOf x ++ rest :=
  ⟨ofBits w (bits.take w), bits.drop w, by simp [h], by rw [bitsOf_ofBits (by simp [h]), List.take_append_drop]⟩

theorem exists_bitsOf {w : Nat} {bits : List Bool} (h : bits.length = w) : ∃ x : BitVec w, bits = bitsOf x :=
  ⟨ofBits w bits, (bitsOf_ofBits h).symm⟩

/-! #### The fields of a string of cells -/

@[simp] theorem cellField_append {n : Nat} {a : List Bool} (h : a.length = n) (rest : List Bool) :
    cellField (a ++ rest) 0 n = a := by
  simp [cellField, ← h]

@[simp] theorem cellField_bitsOf_append {w : Nat} (x : BitVec w) (rest : List Bool) :
    cellField (bitsOf x ++ rest) 0 w = bitsOf x := cellField_append (bitsOf_length x) rest

@[simp] theorem cellField_bitsOf {w : Nat} (x : BitVec w) : cellField (bitsOf x) 0 w = bitsOf x := by
  simpa using cellField_bitsOf_append x []

@[simp] theorem cellField_skip {w start : Nat} (x : BitVec w) (h : w ≤ start) (rest : List Bool) (len : Nat) :
    cellField (bitsOf x ++ rest) start len = cellField rest (start - w) len := by
  rw [cellField, List.drop_append, List.drop_eq_nil_of_le (by simpa [bitsOf_length] using h), bitsOf_length,
    List.nil_append, cellField]

/-! ### The body of a frame (R137, Tables 7.2 and 7.3) -/

/-- No locator and no cluster size of the body is 0 (R137). -/
def FrameBody.Nonzero : FrameBody → Prop
  | .answer (.verdict (.known l)) | .answer (.notice (.known l)) | .answer (.commitReply (.superseded l)) => l ≠ 0
  | .commit _ l | .release _ l => l ≠ 0
  | .beacon _ size => size ≠ 0
  | .answer _ | .drop _ | .ask _ => True

/-- Only a beacon goes to destination 15 (R137). -/
theorem Frame.proper_iff (f : Frame) : f.Proper ↔ (f.dest = 15 ↔ f.body.typeCode = 8) ∧ f.body.Nonzero := by
  obtain ⟨sender, dest, tag, body⟩ := f
  rcases body with ((l | _ | _ | _) | (l | _) | (_ | l | _) | o) | _ | _ | _ | _ | _ <;>
    simp [Frame.Proper, FrameBody.Nonzero, FrameBody.typeCode]

theorem FrameBody.typeCode_toNat (b : FrameBody) : b.typeCode.toNat = b.onLine.1 := by
  rcases b with ((l | _ | _ | (_ | _ | _ | _)) | (l | _) | (_ | l | _) | (_ | _ | _ | _)) | _ | _ | _ | _ | _ <;> rfl

theorem FrameBody.cells_eq (b : FrameBody) : b.cells = b.onLine.2 := by
  rcases b with ((l | _ | _ | (_ | _ | _ | _)) | (l | _) | (_ | l | _) | (_ | _ | _ | _)) | _ | _ | _ | _ | _
  case beacon fresh size => cases fresh <;> simp [FrameBody.cells, FrameBody.onLine, ← bitsOf_eq_cellsOf] <;> rfl
  all_goals
    simp only [FrameBody.cells, AnswerBody.cells, FrameBody.onLine, AnswerBody.onLine, bitsOf_eq_cellsOf] <;> rfl

theorem Frame.cells_eq (f : Frame) :
    f.cells = bitsOf f.body.cls ++ (bitsOf f.sender ++ (f.covered ++ bitsOf (crc16 f.covered))) := by
  rw [Frame.cells, Frame.precedence, show bitsOf (f.body.cls ++ f.sender : BitVec 6) = _ from bitsOf_append _ _,
    List.append_assoc, List.append_assoc]

theorem noindexOfCode_eq_some_iff {c : BitVec 4} {r : NoindexReason} : noindexOfCode c.toNat = some r ↔ c = r.code := by
  revert c
  cases r <;> decide

theorem toNat_eq_zero {w : Nat} {x : BitVec w} : x.toNat = 0 ↔ x = 0 := by
  simp [← BitVec.toNat_inj]

/-- The code of a body's first two cells. -/
theorem code_cases (c : BitVec 2) : c = 0 ∨ c = 1 ∨ c = 2 ∨ c = 3 := by
  revert c
  decide

theorem bitsOf_ofBool (b : Bool) : bitsOf (BitVec.ofBool b) = [b] := by
  cases b <;> rfl

@[simp] theorem cellKey_append (k : Key) (rest : List Bool) : cellKey (bitsOf k.pool ++ (bitsOf k.fp ++ rest)) = k := by
  simp [cellKey]

@[simp] theorem cellKey_bits (k : Key) : cellKey (bitsOf k.pool ++ bitsOf k.fp) = k := by
  simpa using cellKey_append k []

/-- The cells of a well-formed body decode to it. -/
theorem decodeBody_cells {b : FrameBody} (h : b.Nonzero) : decodeBody b.typeCode.toNat b.cells = some b := by
  rcases b with ((l | _ | _ | r) | (l | _) | (_ | l | _) | o) | ⟨_, l⟩ | _ | ⟨_, l⟩ | _ | ⟨fresh, size⟩
  case answer.verdict.noindex =>
    simp [FrameBody.cells, AnswerBody.cells, FrameBody.typeCode, decodeBody, noindexOfCode_eq_some_iff.2 rfl]
  case answer.releaseReply =>
    cases o <;> simp [FrameBody.cells, AnswerBody.cells, FrameBody.typeCode, decodeBody, ReleaseOutcome.code]
  case beacon =>
    have hsize : cellField (fresh :: bitsOf size) 1 4 = bitsOf size := cellField_bitsOf size
    have hne : size ≠ 0 := h
    simpa [FrameBody.cells, FrameBody.typeCode, decodeBody, bitsOf_ofBool, hsize] using hne
  case answer.verdict.known | answer.notice.known | answer.commitReply.superseded | commit | release =>
    have hne : l ≠ 0 := h
    simpa [FrameBody.cells, AnswerBody.cells, FrameBody.typeCode, decodeBody, cellLocator] using hne
  all_goals simp [FrameBody.cells, AnswerBody.cells, FrameBody.typeCode, decodeBody]

/-- Their number is the length of the type's body. -/
theorem bodyLength_cells (b : FrameBody) :
    bodyLength b.typeCode.toNat (natOfBits (cellField b.cells 0 2)) = some b.cells.length := by
  rcases b with ((l | _ | _ | r) | (l | _) | (_ | l | _) | o) | _ | _ | _ | _ | ⟨fresh, size⟩ <;>
    simp [FrameBody.cells, AnswerBody.cells, FrameBody.typeCode, bodyLength, bitsOf_length]

/-- The type code and cells are those of a well-formed body. -/
def FrameBody.Spelled (b : FrameBody) (typeCode : Nat) (cells : List Bool) : Prop :=
  b.typeCode.toNat = typeCode ∧ b.cells = cells ∧ b.Nonzero

section Spelled
variable {body : List Bool} {b : FrameBody}

theorem decodeBody_verdict (hlen : bodyLength 0 (natOfBits (cellField body 0 2)) = some body.length)
    (h : decodeBody 0 body = some b) : b.Spelled 0 body := by
  by_cases h0 : natOfBits (cellField body 0 2) = 0
  · have h54 : 54 = body.length := by simpa [bodyLength, h0] using hlen
    obtain ⟨c, m, hm, rfl⟩ := exists_bitsOf_append 2 (n := 52) h54.symm
    obtain ⟨r, m, hl, rfl⟩ := exists_bitsOf_append 4 (n := 48) hm
    obtain ⟨l, rfl⟩ := exists_bitsOf hl
    obtain rfl : c = 0 := toNat_eq_zero.1 (by simpa using h0)
    obtain ⟨rfl, hne, rfl⟩ : r = 0 ∧ l ≠ 0 ∧ .answer (.verdict (.known l)) = b := by
      simpa [decodeBody, cellLocator, toNat_eq_zero] using h
    exact ⟨rfl, List.append_assoc _ _ _, hne⟩
  · have h6 : 6 = body.length := by simpa [bodyLength, h0] using hlen
    obtain ⟨c, m, hm, rfl⟩ := exists_bitsOf_append 2 (n := 4) h6.symm
    obtain ⟨r, rfl⟩ := exists_bitsOf hm
    rcases code_cases c with rfl | rfl | rfl | rfl
    · exact absurd rfl h0
    · obtain ⟨rfl, rfl⟩ : r = 0 ∧ .answer (.verdict .write) = b := by simpa [decodeBody, toNat_eq_zero] using h
      exact ⟨rfl, rfl, trivial⟩
    · obtain ⟨rfl, rfl⟩ : r = 0 ∧ .answer (.verdict .hold) = b := by simpa [decodeBody, toNat_eq_zero] using h
      exact ⟨rfl, rfl, trivial⟩
    · obtain ⟨reason, rfl, rfl⟩ : ∃ x : NoindexReason, r = x.code ∧ .answer (.verdict (.noindex x)) = b := by
        simpa [decodeBody, noindexOfCode_eq_some_iff] using h
      exact ⟨rfl, rfl, trivial⟩

theorem decodeBody_notice (hlen : bodyLength 1 (natOfBits (cellField body 0 2)) = some body.length)
    (h : decodeBody 1 body = some b) : b.Spelled 1 body := by
  by_cases h0 : natOfBits (cellField body 0 2) = 0
  · have h50 : 50 = body.length := by simpa [bodyLength, h0] using hlen
    obtain ⟨c, m, hm, rfl⟩ := exists_bitsOf_append 2 (n := 48) h50.symm
    obtain ⟨l, rfl⟩ := exists_bitsOf hm
    obtain rfl : c = 0 := toNat_eq_zero.1 (by simpa using h0)
    obtain ⟨hne, rfl⟩ : l ≠ 0 ∧ .answer (.notice (.known l)) = b := by simpa [decodeBody, cellLocator] using h
    exact ⟨rfl, rfl, hne⟩
  · have h2 : 2 = body.length := by simpa [bodyLength, h0] using hlen
    obtain ⟨c, rfl⟩ := exists_bitsOf h2.symm
    rcases code_cases c with rfl | rfl | rfl | rfl
    · exact absurd rfl h0
    · obtain rfl : .answer (.notice .write) = b := by simpa [decodeBody] using h
      exact ⟨rfl, rfl, trivial⟩
    all_goals simp [decodeBody] at h

theorem decodeBody_commitReply (hlen : bodyLength 2 (natOfBits (cellField body 0 2)) = some body.length)
    (h : decodeBody 2 body = some b) : b.Spelled 2 body := by
  by_cases h1 : natOfBits (cellField body 0 2) = 1
  · have h50 : 50 = body.length := by simpa [bodyLength, h1] using hlen
    obtain ⟨c, m, hm, rfl⟩ := exists_bitsOf_append 2 (n := 48) h50.symm
    obtain ⟨l, rfl⟩ := exists_bitsOf hm
    obtain rfl : c = 1 := BitVec.eq_of_toNat_eq (by simpa using h1)
    obtain ⟨hne, rfl⟩ : l ≠ 0 ∧ .answer (.commitReply (.superseded l)) = b := by
      simpa [decodeBody, cellLocator] using h
    exact ⟨rfl, rfl, hne⟩
  · have h2 : 2 = body.length := by simpa [bodyLength, h1] using hlen
    obtain ⟨c, rfl⟩ := exists_bitsOf h2.symm
    rcases code_cases c with rfl | rfl | rfl | rfl
    · obtain rfl : .answer (.commitReply .indexed) = b := by simpa [decodeBody] using h
      exact ⟨rfl, rfl, trivial⟩
    · exact absurd rfl h1
    · obtain rfl : .answer (.commitReply .notIndexed) = b := by simpa [decodeBody] using h
      exact ⟨rfl, rfl, trivial⟩
    · simp [decodeBody] at h

theorem decodeBody_releaseReply (hlen : bodyLength 3 (natOfBits (cellField body 0 2)) = some body.length)
    (h : decodeBody 3 body = some b) : b.Spelled 3 body := by
  obtain ⟨c, rfl⟩ := exists_bitsOf (Option.some.inj hlen).symm
  obtain ⟨o, rfl, rfl⟩ : ∃ o : ReleaseOutcome, c = o.code ∧ .answer (.releaseReply o) = b := by
    rcases code_cases c with rfl | rfl | rfl | rfl
    · exact ⟨.pinned, rfl, by simpa [decodeBody] using h⟩
    · exact ⟨.counted, rfl, by simpa [decodeBody] using h⟩
    · exact ⟨.retired, rfl, by simpa [decodeBody] using h⟩
    · exact ⟨.notFound, rfl, by simpa [decodeBody] using h⟩
  cases o <;> exact ⟨rfl, rfl, trivial⟩

/-- A body of a type with a key begins with one. -/
theorem exists_key_cells {n : Nat} (h : body.length = 132 + n) :
    ∃ (k : Key) (rest : List Bool), rest.length = n ∧ body = bitsOf k.pool ++ (bitsOf k.fp ++ rest) := by
  obtain ⟨p, m, hm, rfl⟩ := exists_bitsOf_append 4 (n := 128 + n) (h.trans (Nat.add_assoc 4 128 n))
  obtain ⟨fp, rest, hrest, rfl⟩ := exists_bitsOf_append 128 hm
  exact ⟨⟨p, fp⟩, rest, hrest, rfl⟩

/-- COMMIT and RELEASE carry a key and a locator. -/
theorem decodeBody_key_locator {t : Nat} (hlen : 180 = body.length) {make : Key → Locator → FrameBody}
    (h : (cellLocator body 132).map (make (cellKey body)) = some b)
    (hs : ∀ k l, l ≠ 0 → (make k l).Spelled t (bitsOf k.pool ++ bitsOf k.fp ++ bitsOf l)) : b.Spelled t body := by
  obtain ⟨k, m, hm, rfl⟩ := exists_key_cells (n := 48) hlen.symm
  obtain ⟨l, rfl⟩ := exists_bitsOf hm
  obtain ⟨hne, rfl⟩ : l ≠ 0 ∧ make k l = b := by simpa [cellLocator] using h
  rw [← List.append_assoc]
  exact hs k l hne

/-- DROP and ASK carry a key. -/
theorem decodeBody_key {t : Nat} (hlen : 132 = body.length) {make : Key → FrameBody}
    (h : some (make (cellKey body)) = some b)
    (hs : ∀ k, (make k).Spelled t (bitsOf k.pool ++ bitsOf k.fp)) : b.Spelled t body := by
  obtain ⟨k, m, hm, rfl⟩ := exists_key_cells (n := 0) hlen.symm
  obtain rfl := List.length_eq_zero_iff.1 hm
  obtain rfl : make k = b := by simpa using h
  rw [List.append_nil]
  exact hs k

theorem decodeBody_beacon (hlen : bodyLength 8 (natOfBits (cellField body 0 2)) = some body.length)
    (h : decodeBody 8 body = some b) : b.Spelled 8 body := by
  obtain ⟨fresh, m, rfl⟩ := List.exists_cons_of_length_eq_add_one (Option.some.inj hlen).symm
  obtain ⟨size, rfl⟩ := exists_bitsOf (Nat.succ.inj (Option.some.inj hlen)).symm
  have hsize : cellField (fresh :: bitsOf size) 1 4 = bitsOf size := cellField_bitsOf size
  obtain ⟨hne, rfl⟩ : size ≠ 0 ∧ .beacon fresh size = b := by simpa [decodeBody, hsize] using h
  exact ⟨rfl, by simp [FrameBody.cells, bitsOf_ofBool], hne⟩

/-- Cells of the type's length decode only to the well-formed body that they spell. -/
theorem decodeBody_spelled {t : Nat} (hlen : bodyLength t (natOfBits (cellField body 0 2)) = some body.length)
    (h : decodeBody t body = some b) : b.Spelled t body := by
  match t with
  | 0 => exact decodeBody_verdict hlen h
  | 1 => exact decodeBody_notice hlen h
  | 2 => exact decodeBody_commitReply hlen h
  | 3 => exact decodeBody_releaseReply hlen h
  | 4 => exact decodeBody_key_locator (make := .commit) (Option.some.inj hlen) h fun _ _ hl => ⟨rfl, rfl, hl⟩
  | 5 => exact decodeBody_key (make := .drop) (Option.some.inj hlen) h fun _ => ⟨rfl, rfl, trivial⟩
  | 6 => exact decodeBody_key_locator (make := .release) (Option.some.inj hlen) h fun _ _ hl => ⟨rfl, rfl, hl⟩
  | 7 => exact decodeBody_key (make := .ask) (Option.some.inj hlen) h fun _ => ⟨rfl, rfl, trivial⟩
  | 8 => exact decodeBody_beacon hlen h
  | n + 9 => cases h

end Spelled

/-! ### The whole frame (R136, R146) -/

/-- What the check field covers: type, destination, tag and body. -/
def coveredCells (type dest : BitVec 4) (tag : Tag) (body : List Bool) : List Bool :=
  bitsOf type ++ (bitsOf dest ++ (bitsOf tag ++ body))

/-- Cells in the layout of a frame, with any value in each field. -/
def frameLayout (cls : BitVec 2) (sender type dest : BitVec 4) (tag : Tag) (body : List Bool) (code : BitVec 16) :
    List Bool :=
  bitsOf cls ++ (bitsOf sender ++ (coveredCells type dest tag body ++ bitsOf code))

theorem coveredCells_length {type dest : BitVec 4} {tag : Tag} {body : List Bool} :
    (coveredCells type dest tag body).length = 20 + body.length := by
  simp only [coveredCells, List.length_append, bitsOf_length]
  omega

theorem Frame.covered_eq (f : Frame) : f.covered = coveredCells f.body.typeCode f.dest f.tag f.body.cells := by
  simp only [Frame.covered, coveredCells, List.append_assoc]

theorem Frame.cells_eq_frameLayout (f : Frame) :
    f.cells = frameLayout f.body.cls f.sender f.body.typeCode f.dest f.tag f.body.cells (crc16 f.covered) := by
  rw [Frame.cells_eq, frameLayout, Frame.covered_eq]

/-- Every string of at least 42 cells has the layout. -/
theorem exists_frameLayout {n : Nat} {cells : List Bool} (h : cells.length = 42 + n) :
    ∃ cls sender type dest tag body code, body.length = n ∧ cells = frameLayout cls sender type dest tag body code := by
  obtain ⟨cls, m, h40, rfl⟩ := exists_bitsOf_append 2 (n := 40 + n) (h.trans (by omega))
  obtain ⟨sender, m, h36, rfl⟩ := exists_bitsOf_append 4 (n := 36 + n) (h40.trans (by omega))
  obtain ⟨type, m, h32, rfl⟩ := exists_bitsOf_append 4 (n := 32 + n) (h36.trans (by omega))
  obtain ⟨dest, m, h28, rfl⟩ := exists_bitsOf_append 4 (n := 28 + n) (h32.trans (by omega))
  obtain ⟨tag, m, h16, rfl⟩ := exists_bitsOf_append 12 (n := 16 + n) (h28.trans (by omega))
  obtain ⟨code, hcode⟩ := exists_bitsOf (w := 16) (bits := m.drop n) (by simp [h16])
  refine ⟨cls, sender, type, dest, tag, m.take n, code, by simp [h16], ?_⟩
  simp [frameLayout, coveredCells, ← hcode]

theorem two_le_bodyLength {t first n : Nat} (h : bodyLength t first = some n) : 2 ≤ n := by
  unfold bodyLength at h
  split at h
  case h_1 | h_2 | h_3 => cases h; split <;> decide
  case h_10 => cases h
  all_goals cases h; decide

/-- A string of cells read as a frame has the layout of one. -/
theorem parseFrame_length {cells : List Bool} {f : Frame} (h : parseFrame cells = some f) :
    ∃ n, 2 ≤ n ∧ cells.length = 42 + n := by
  unfold parseFrame at h
  dsimp only at h
  split at h
  · cases h
  · rename_i n hn
    split at h
    · cases h
    · exact ⟨n, two_le_bodyLength hn, not_not.1 ‹_›⟩

section Layout
variable {cls : BitVec 2} {sender type dest : BitVec 4} {tag : Tag} {body : List Bool} {code : BitVec 16}

theorem frameLayout_length : (frameLayout cls sender type dest tag body code).length = 42 + body.length := by
  simp only [frameLayout, List.length_append, bitsOf_length, coveredCells_length]
  omega

/-- The fields before the body. -/
theorem frameLayout_head : let cells := frameLayout cls sender type dest tag body code
    cellField cells 0 2 = bitsOf cls ∧ cellField cells 2 4 = bitsOf sender ∧ cellField cells 6 4 = bitsOf type ∧
      cellField cells 10 4 = bitsOf dest ∧ cellField cells 14 12 = bitsOf tag := by
  simp [frameLayout, coveredCells]

/-- The covered fields, the body and its first two cells, and the check field. -/
theorem frameLayout_tail (h2 : 2 ≤ body.length) : let cells := frameLayout cls sender type dest tag body code
    cellField cells 6 (20 + body.length) = coveredCells type dest tag body ∧
      cellField cells 26 body.length = body ∧ cellField cells 26 2 = cellField body 0 2 ∧
      cellField cells (26 + body.length) 16 = bitsOf code := by
  have hfirst : cellField (body ++ bitsOf code) 0 2 = cellField body 0 2 := List.take_append_of_le_length h2
  have hcode : cellField (frameLayout cls sender type dest tag body code) (26 + body.length) 16 = bitsOf code := by
    rw [frameLayout, ← List.append_assoc, ← List.append_assoc, cellField, List.drop_left' ?_,
      List.take_of_length_le (bitsOf_length code).le]
    simp only [List.length_append, bitsOf_length, coveredCells_length]
    omega
  refine ⟨?_, ?_, ?_, hcode⟩
  · simp [frameLayout, cellField_append coveredCells_length]
  · simp [frameLayout, coveredCells]
  · simp [frameLayout, coveredCells, hfirst]

/-- The receive checks on cells in the layout (R146). -/
theorem parseFrame_frameLayout (h2 : 2 ≤ body.length) {f : Frame} :
    parseFrame (frameLayout cls sender type dest tag body code) = some f ↔
      bodyLength type.toNat (natOfBits (cellField body 0 2)) = some body.length ∧
      crc16 (coveredCells type dest tag body) = code ∧
      ∃ b, decodeBody type.toNat body = some b ∧ cls = b.cls ∧ (dest = 15 ↔ type = 8) ∧ ⟨sender, dest, tag, b⟩ = f := by
  obtain ⟨hcls, hsender, htype, hdest, htag⟩ := frameLayout_head (cls := cls) (sender := sender) (type := type)
    (dest := dest) (tag := tag) (body := body) (code := code)
  obtain ⟨hcovered, hbody, hfirst, hcode⟩ := frameLayout_tail (cls := cls) (sender := sender) (type := type)
    (dest := dest) (tag := tag) (code := code) h2
  have h8 : type.toNat = 8 ↔ type = 8 := BitVec.toNat_inj (y := 8)
  unfold parseFrame
  dsimp only
  rw [hcls, hsender, htype, hdest, htag, hfirst, frameLayout_length]
  simp only [natOfBits_bitsOf, ofBits_bitsOf]
  cases hn : bodyLength type.toNat (natOfBits (cellField body 0 2)) with
  | none => simp
  | some n =>
    by_cases hl : body.length = n
    · subst hl
      simp only [hcovered, hbody, hcode, ofBits_bitsOf]
      cases hb : decodeBody type.toNat body with
      | none => simp
      | some b => simp [h8]
    · simp [hl, Ne.symm hl]

end Layout

/-- Settles O50. -/
theorem framesReadBackAsSent : Obligations.FramesReadBackAsSent := by
  refine ⟨fun f => ?_, fun cells f => ⟨fun h => ?_, ?_⟩⟩
  · have hcovered : f.covered =
        cellsOf 4 f.body.onLine.1 ++ cellsOf 4 f.dest.toNat ++ cellsOf 12 f.tag.toNat ++ f.body.onLine.2 := by
      simp only [Frame.covered, bitsOf_eq_cellsOf, FrameBody.typeCode_toNat, FrameBody.cells_eq]
    rw [Frame.cells_eq, hcovered]
    simp only [bitsOf_eq_cellsOf, List.append_assoc]
  · obtain ⟨n, h2, hlen⟩ := parseFrame_length h
    obtain ⟨cls, sender, type, dest, tag, body, code, rfl, rfl⟩ := exists_frameLayout hlen
    obtain ⟨hn, rfl, b, hb, rfl, hbeacon, rfl⟩ := (parseFrame_frameLayout h2).1 h
    obtain ⟨htype, rfl, hne⟩ := decodeBody_spelled hn hb
    obtain rfl := BitVec.eq_of_toNat_eq htype
    rw [Frame.cells_eq_frameLayout, Frame.covered_eq, Frame.proper_iff]
    exact ⟨rfl, hbeacon, hne⟩
  · rintro ⟨rfl, hf⟩
    obtain ⟨hbeacon, hne⟩ := f.proper_iff.1 hf
    have hn := bodyLength_cells f.body
    rw [Frame.cells_eq_frameLayout, parseFrame_frameLayout (two_le_bodyLength hn)]
    exact ⟨hn, by rw [Frame.covered_eq], f.body, decodeBody_cells hne, rfl, hbeacon, rfl⟩

end Sys2Proof.Machine
end

section
namespace Sys2Proof.Machine

/-! ### Which operations leave the peer table (R153) -/

@[simp] theorem Roster.oweConflict_peers (c : OwedConflict) (r : Roster) : (r.oweConflict c).peers = r.peers := by
  unfold Roster.oweConflict
  split <;> rfl

@[simp] theorem Station.reportPeer_peers (v : PeerEvent) (p : StationNo) (s : Station) :
    (s.reportPeer v p).roster.peers = s.roster.peers := rfl

@[simp] theorem Station.beaconFallsDue_peers (s : Station) : s.beaconFallsDue.roster.peers = s.roster.peers := by
  unfold Station.beaconFallsDue
  split <;> rfl

@[simp] theorem Station.beaconExpired_peers (s : Station) : s.beaconExpired.roster.peers = s.roster.peers := by
  unfold Station.beaconExpired
  (repeat' split) <;> simp

@[simp] theorem Station.enterRunning_peers (f : Bool) (s : Station) :
    (s.enterRunning f).roster.peers = s.roster.peers := by
  simp [Station.enterRunning]

@[simp] theorem Station.startTaken_peers (s : Station) : s.startTaken.roster.peers = s.roster.peers := by
  unfold Station.startTaken
  dsimp only
  split <;> simp

theorem Station.decideStart_peers {e : CmdEntry} {s t : Station} (h : s.decideStart e = some t) :
    t.roster.peers = s.roster.peers := by
  unfold Station.decideStart at h
  (repeat' split at h) <;> cases h <;> simp

@[simp] theorem Station.scrubDone_peers (b : Nat) (s : Station) : (s.scrubDone b).roster.peers = s.roster.peers := by
  unfold Station.scrubDone
  dsimp only
  split <;> simp

@[simp] theorem Station.deliverHeld_peers (s : Station) : s.deliverHeld.roster.peers = s.roster.peers := by
  unfold Station.deliverHeld
  split <;> rfl

@[simp] theorem Station.admitSource_peers (x : Source) (s : Station) :
    (s.admitSource x).roster.peers = s.roster.peers := by
  unfold Station.admitSource
  dsimp only
  (repeat' split) <;> simp

@[simp] theorem Station.offerPeerItem_peers (i : WorkItem) (s : Station) :
    (s.offerPeerItem i).roster.peers = s.roster.peers := by
  unfold Station.offerPeerItem
  split <;> rfl

@[simp] theorem Station.cleanupPeer_peers (r : Bool) (p : StationNo) (s : Station) :
    (s.cleanupPeer r p).roster.peers = s.roster.peers := by
  simp [Station.cleanupPeer]

@[simp] theorem Station.tellOutcome_peers (f : TxFrame) (a : Bool) (s : Station) :
    (s.tellOutcome f a).roster.peers = s.roster.peers := by
  unfold Station.tellOutcome
  (repeat' split) <;> simp [Roster.beaconOutcome]

@[simp] theorem Station.endAttempt_peers (f : TxFrame) (a : Bool) (s : Station) :
    (s.endAttempt f a).roster.peers = s.roster.peers := by
  unfold Station.endAttempt
  (repeat' split) <;> simp

@[simp] theorem Station.tellProducer_peers (p : Producer) (r : Report) (s : Station) :
    (s.tellProducer p r).roster.peers = s.roster.peers := by
  cases p with
  | lane => cases r <;> simp [Station.tellProducer]
  | _ => rfl

@[simp] theorem Station.appendReport_peers (p : Producer) (r : Report) (s : Station) :
    (s.appendReport p r).roster.peers = s.roster.peers := by
  unfold Station.appendReport
  split <;> simp

/-- The commands that may change the peer table once the deadlines are acted on: the resets, the receipt of a frame, and
the duties of the roster on changes and beacons. -/
def Instr.touchesPeers : Instr → Bool
  | .coldReset | .warmReset | .frameReceived _ _ | .inboundDispatch | .peerSilent | .peerJoin | .beaconTaken => true
  | _ => false

/-- Every other command leaves it as it is. -/
theorem exec_peers {c : Instr} (hd : Instr.isDeadlineRow c = false) (hc : Instr.touchesPeers c = false) {s t : State}
    (ha : s.station.DeadlinesActed) (h : exec c s = .next t) : t.station.roster.peers = s.station.roster.peers := by
  rw [← Station.settled_of_acted ha]
  cases c with
  | start =>
    cases h
    exact Station.takeHead_keeps (fun x => x.roster.peers) (fun _ _ => rfl) fun _ _ _ => Station.decideStart_peers
  | scrubWriteDone | workQueueAdmit | reportAppend | attemptEnd | conflictReport =>
    cases h
    dsimp only
    (repeat' split) <;> simp
  | coldRelease => simp [execColdRelease_frame h]
  | warmRelease => simp [execWarmRelease_frame h]
  | stagingWrite => simp [execStagingWrite_frame h]
  | reportWordRead => simp [execReportWordRead_frame h]
  | statusWordRead => simp [execStatusWordRead_frame h]
  | commandWordWrite => simp [execCommandWordWrite_frame h]
  | poolSet => simp [execPoolSet_frame h]
  | configure => simp [execConfigure_frame h]
  | stats => simp [execStats_frame h]
  | unknownCommand => simp [execUnknownCommand_frame h]
  | openLane => simp [execOpenLane_frame h]
  | resume => simp [execResume_frame h]
  | segment => simp [execSegment_frame h]
  | stored => simp [execStored_frame h]
  | storeFailed => simp [execStoreFailed_frame h]
  | abort => simp [execAbort_frame h]
  | close => simp [execClose_frame h]
  | suspend => simp [execSuspend_frame h]
  | release => simp [execRelease_frame h]
  | leaseTick => simp [execLeaseTick_frame h]
  | leaseExpiry => simp [execLeaseExpiry_frame h]
  | ask => simp [execAsk_frame h]
  | commit => simp [execCommit_frame h]
  | drop => simp [execDrop_frame h]
  | releaseItem => simp [execReleaseItem_frame h]
  | peerLost => simp [execPeerLost_frame h]
  | peerRestarted => simp [execPeerRestarted_frame h]
  | bucketWriteDone => simp [execBucketWriteDone_frame h]
  | answerHandOn => simp [execAnswerHandOn_frame h]
  | burstIssue => simp [execBurstIssue_frame h]
  | fetchReadCompletion => simp [execFetchReadCompletion_frame h]
  | fetchTimeout => simp [execFetchTimeout_frame h]
  | burstCompletion => simp [execBurstCompletion_frame h]
  | digestStart => simp [execDigestStart_frame h]
  | digestCompletion => simp [execDigestCompletion_frame h]
  | tagGrant => simp [execTagGrant_frame h]
  | requestHandOn => simp [execRequestHandOn_frame h]
  | exchangeReportReady => simp [execExchangeReportReady_frame h]
  | laneReportReady => simp [execLaneReportReady_frame h]
  | contention => simp [execContention_frame h]
  | yieldClear => simp [execYieldClear_frame h]
  | frameAbandoned => simp [execFrameAbandoned_frame h]
  | coldReset | warmReset | frameReceived | inboundDispatch | peerSilent | peerJoin | beaconTaken => cases hc
  | leaseDeadline | answerDeadline | holdDeadline | orphanHoldDeadline | silenceDeadline | beaconDue => cases hd

end Sys2Proof.Machine
end

section
namespace Sys2Proof.Machine

/-! ### Markers stay where the presence allows them, on peers of the cluster (R153, R154) -/

/-- A station in RUNNING stays there with its straps, except at a reset. -/
theorem exec_keeps_running {c : Instr} {s t : State} (hd : Instr.isDeadlineRow c = false)
    (hreset : c ≠ .coldReset ∧ c ≠ .warmReset) (ha : s.station.DeadlinesActed) (hs : s.station.StartSound)
    (hr : s.station.control.state = .running) (h : exec c s = .next t) :
    t.station.control.state = .running ∧ t.station.control.straps = s.station.control.straps := by
  obtain ⟨hcold, hwarm⟩ := hreset
  refine ⟨by_contra fun hne => ?_, by_contra fun hne => ?_⟩
  · have hrow := exec_stateByTable hd ha h (by rwa [hr])
    simp [Station.StateByTable, hcold, hwarm, hr] at hrow
  · have hrule := exec_byRule hd h
    rw [Station.settled_of_acted ha] at hrule
    rcases hrule.straps hne with ⟨e, -⟩ | ⟨_, _, _, _, _, -, hpin, -⟩
    · exact hcold (Option.some.inj e)
    · have hconfig := (hs.pinned (by simp [Station.inReset, hpin])).1
      rw [hr] at hconfig
      cases hconfig

/-- The number is that of another station of the cluster, and the station is RUNNING: only such a number's record is ever
touched (R153). -/
structure Station.KnowsPeer (s : Station) (p : StationNo) : Prop where
  running : s.control.state = .running
  inside : p < s.control.straps.clusterSize
  other : p ≠ s.own

/-- A peer table with no record touched is sound. -/
theorem Station.rosterSound_of_untouched {s : Station} (h : ∀ p, s.peer p = {}) : s.RosterSound where
  heard p := by rw [h]; nofun
  silence p := by rw [h]; nofun
  outside p _ := h p
  own := h _
  idle _ := h

namespace Station.RosterSound
variable {s t : Station}

/-- The peer table is as it was, and so are straps and state where the station was RUNNING. -/
theorem of_peers (h : s.RosterSound) (hp : t.roster.peers = s.roster.peers)
    (hc : s.control.state = .running → t.control.state = .running ∧ t.control.straps = s.control.straps) :
    t.RosterSound := by
  have hpeer p : t.peer p = s.peer p := by simp only [Station.peer, hp]
  by_cases hr : s.control.state = .running
  · obtain ⟨hst, hx⟩ := hc hr
    exact {
      heard := fun p => by rw [hpeer]; exact h.heard p
      silence := fun p => by rw [hpeer]; exact h.silence p
      outside := fun p => by rw [hpeer, hx]; exact h.outside p
      own := by rw [hpeer, Station.own, hx]; exact h.own
      idle := fun hn => absurd hst hn }
  · exact Station.rosterSound_of_untouched fun p => (hpeer p).trans (h.idle hr p)

theorem of_settings (h : s.RosterSound) (hp : t.roster.peers = s.roster.peers := by simp)
    (hc : t.control.settings = s.control.settings := by simp) : t.RosterSound := by
  obtain ⟨-, -, hx, hst, -⟩ := Control.settings_eq hc
  exact h.of_peers hp fun hr => ⟨hst.trans hr, hx⟩

/-- A touched record is that of a peer of the cluster. -/
theorem knowsPeer (h : s.RosterSound) {p : StationNo} (hne : s.peer p ≠ {}) : s.KnowsPeer p where
  running := by_contra fun hr => hne (h.idle hr p)
  inside := BitVec.not_le.1 fun hle => hne (h.outside p hle)
  other := fun e => hne (e ▸ h.own)

theorem knowsPeer_of_serving (h : s.RosterSound) {p : StationNo} (hst : (s.peer p).state = .serving) : s.KnowsPeer p :=
  h.knowsPeer fun e => by rw [e] at hst; cases hst

/-- The record of a peer of the cluster replaced by one whose markers fit its presence. -/
theorem setPeer (h : s.RosterSound) {p : StationNo} {r : Peer} (hp : s.KnowsPeer p)
    (hheard : r.heard = true → r.state ≠ .serving) (hsilence : r.silence = true → r.state = .serving) :
    (s.setPeer p r).RosterSound := by
  obtain ⟨hrun, hin, hother⟩ := hp
  have hpeer q : (s.setPeer p r).peer q = if p = q then r else s.peer q :=
    Station.peer_setPeer p q r s (by bv_omega)
  exact {
    heard := fun q => by rw [hpeer]; split <;> [exact hheard; exact h.heard q]
    silence := fun q => by rw [hpeer]; split <;> [exact hsilence; exact h.silence q]
    outside := fun q hq => by
      have hne : p ≠ q := by rintro rfl; exact BitVec.not_le.2 hin hq
      rw [hpeer, if_neg hne]
      exact h.outside q hq
    own := (hpeer s.own).trans ((if_neg hother).trans h.own)
    idle := fun hn => absurd hrun hn }

/-- The silence marker is set on a SERVING peer only (R156). -/
theorem markSilence (h : s.RosterSound) (p : StationNo) : (s.markSilence p).RosterSound := by
  unfold Station.markSilence
  split
  · rename_i hr
    have hst : (s.peer p).state = .serving := by
      simp only [Station.peerReached, Bool.and_eq_true, beq_iff_eq] at hr
      obtain ⟨⟨hst, -⟩, -⟩ := hr
      exact hst
    exact h.setPeer (h.knowsPeer_of_serving hst) (h.heard p) fun _ => hst
  · exact h

theorem actDeadline (h : s.RosterSound) (d : Deadline) : (s.actDeadline d).RosterSound := by
  cases d with
  | peer p => exact h.markSilence p
  | claim p => exact h.of_settings (by simp [Station.actDeadline]) (s.actDeadline_settings _)
  | entry i => exact h.of_settings (by simp [Station.actDeadline]) (s.actDeadline_settings _)
  | beacon => exact h.of_settings (by simp [Station.actDeadline]) (s.actDeadline_settings _)

/-- A sign of life clears the silence marker, and sets the heard marker of a peer not SERVING only (R155). -/
theorem signOfLife (h : s.RosterSound) {p : StationNo} (hp : s.KnowsPeer p) : (s.signOfLife p).RosterSound := by
  refine h.setPeer hp (fun hh => ?_) nofun
  rcases Bool.or_eq_true_iff.1 hh with hh | hh
  · exact h.heard p hh
  · exact bne_iff_ne.1 hh

/-- The receive checks let a sign of life through only from a peer of the cluster (R146, R147). -/
theorem checkFrame (h : s.RosterSound) (hr : s.control.state = .running) (cells : List Bool) :
    (s.checkFrame cells).RosterSound := by
  unfold Station.checkFrame
  split
  · exact h.of_settings
  rename_i f _
  split
  · exact h.of_settings
  rename_i hsize
  split
  · exact h.of_settings
  rename_i hown
  have hlife := h.signOfLife (p := f.sender) ⟨hr, BitVec.not_le.1 hsize, hown⟩
  unfold Station.goodFrame
  dsimp only
  (repeat' split)
  · exact hlife.of_settings
  · exact hlife.of_settings
  · exact hlife

theorem reportPeer (h : s.RosterSound) (v : PeerEvent) (p : StationNo) : (s.reportPeer v p).RosterSound :=
  h.of_settings rfl rfl

theorem cleanupPeer (h : s.RosterSound) (r : Bool) (p : StationNo) : (s.cleanupPeer r p).RosterSound := h.of_settings

/-- A peer heard joins: SERVING, its heard marker cleared (R155). -/
theorem joinPeer (h : s.RosterSound) {p : StationNo} (hh : (s.peer p).heard = true) : (s.joinPeer p).RosterSound := by
  have hp : s.KnowsPeer p := h.knowsPeer fun e => by rw [e] at hh; cases hh
  refine reportPeer (h.setPeer hp ?_ ?_) _ p
  · nofun
  · exact fun _ => rfl

/-- A peer with its silence marker set falls SILENT, the marker cleared (R156). -/
theorem silencePeer (h : s.RosterSound) {p : StationNo} (hsil : (s.peer p).silence = true) :
    (s.silencePeer p).RosterSound := by
  have hp : s.KnowsPeer p := h.knowsPeer_of_serving (h.silence p hsil)
  refine reportPeer (cleanupPeer (h.setPeer hp ?_ ?_) false p) .silent p
  · exact fun _ => nofun
  · nofun

/-- A beacon touches the record of a SERVING peer only, and no marker of it (R157, R158). -/
theorem decideBeacon (h : s.RosterSound) (p : StationNo) (f : Bool) (z : BitVec 4) :
    (s.decideBeacon p f z).RosterSound := by
  unfold Station.decideBeacon
  dsimp only
  split
  · exact h.of_settings
  split
  · exact h
  rename_i hst
  split
  · exact h.setPeer (h.knowsPeer_of_serving (not_not.1 hst)) (h.heard p) (h.silence p)
  split
  · exact (h.cleanupPeer true p).reportPeer .restarted p
  · exact h

theorem takeBeacon (h : s.RosterSound) : s.takeBeacon.RosterSound := by
  unfold Station.takeBeacon
  (repeat' split)
  · refine decideBeacon ?_ _ _ _
    exact h.of_settings rfl rfl
  all_goals exact h

end Station.RosterSound

/-! #### Every step keeps it so -/

/-- The change that the roster takes is that of a peer with a marker set (R154). -/
theorem Station.changeDuty_marked {s : Station} {p : Fin 15} (h : s.changeDuty = some p) :
    (s.peer (peerNo p)).heard = true ∨ (s.peer (peerNo p)).silence = true := by
  unfold Station.changeDuty at h
  split at h
  · exact Bool.or_eq_true_iff.1 (ringFind_has h)
  · cases h

theorem Station.resetBlocks_peer (s : Station) (c : Control) (p : StationNo) :
    ({ s.resetBlocks with control := c } : Station).peer p = {} :=
  Station.reset_peer p

theorem exec_keeps_rosterSound {c : Instr} {s t : State} (hd : Instr.isDeadlineRow c = false)
    (ha : s.station.DeadlinesActed) (hstart : s.station.StartSound) (hs : s.station.RosterSound)
    (h : exec c s = .next t) : t.station.RosterSound := by
  cases hc : Instr.touchesPeers c with
  | false =>
    have hreset : c ≠ .coldReset ∧ c ≠ .warmReset := by constructor <;> rintro rfl <;> cases hc
    exact hs.of_peers (exec_peers hd hc ha h) fun hr => exec_keeps_running hd hreset ha hstart hr h
  | true =>
    have hu : s.station.settled.RosterSound := by rwa [Station.settled_of_acted ha]
    cases c with
    | coldReset =>
      rw [exec_coldReset_eq ha h]
      exact Station.rosterSound_of_untouched (Station.resetBlocks_peer _ _)
    | warmReset =>
      rcases exec_warmReset_cases ha h with ⟨-, e⟩ | ⟨-, e⟩ <;> rw [e]
      · exact hs.of_peers rfl fun hr => ⟨hr, rfl⟩
      · exact Station.rosterSound_of_untouched (Station.resetBlocks_peer _ _)
    | frameReceived idle cells =>
      cases h
      dsimp only
      split
      · rename_i hr
        have hrun : s.station.settled.control.state = .running := by
          simp only [Station.receives, Station.running, Bool.and_eq_true, beq_iff_eq] at hr
          obtain ⟨⟨hrun, -⟩, -⟩ := hr
          exact hrun
        refine Station.RosterSound.checkFrame ?_ ?_ cells
        · exact hu.of_settings rfl rfl
        · exact hrun
      · exact hu
    | inboundDispatch =>
      cases h
      dsimp only
      (repeat' split)
      · exact hu.of_settings
      · exact hu.takeBeacon
      all_goals exact hu.of_settings
    | peerSilent =>
      cases h
      dsimp only
      split
      · rename_i p hduty
        split
        · exact hu
        · rename_i hnot
          have hsil := (Station.changeDuty_marked hduty).resolve_left hnot
          exact Station.RosterSound.silencePeer (s := { s.station.settled with roster.next := p + 1 })
            (hu.of_settings rfl rfl) hsil
      · exact hu
    | peerJoin =>
      cases h
      dsimp only
      split
      · rename_i p _
        split
        · exact Station.RosterSound.joinPeer (s := { s.station.settled with roster.next := p + 1 })
            (hu.of_settings rfl rfl) ‹_›
        · exact hu
      · exact hu
    | beaconTaken => cases h; exact hu.takeBeacon
    | _ => cases hc

/-- Settles O7. -/
theorem peerTableStaysSound : Obligations.PeerTableStaysSound := by
  intro s t hstart hs h
  refine step_keeps (P := fun x => x.StartSound ∧ x.RosterSound) (Q := Station.RosterSound) (fun _ h => h.2)
    (fun x d ds hd hx => ⟨startSound_keptByDeadlines x d ds hd hx.1, ?_⟩)
    (fun _ _ hx => hx.2.of_settings) (fun _ _ _ hd ha hx h => exec_keeps_rosterSound hd ha hx.1 hx.2 h) ⟨hstart, hs⟩ h
  exact Station.RosterSound.actDeadline (s := { x with clock.reached := ds }) (hx.2.of_settings rfl rfl) d

end Sys2Proof.Machine
end

section
namespace Sys2Proof.Machine

/-! ### The tests of the blocks at an advance (R163, R164) -/

theorem reached_iff {now d : Tick} : reached now d = true ↔ (now - d).toNat < 32768 := decide_eq_true_iff

section Tests
variable {s : Station}

theorem Station.claimReached_iff {p : ClaimPos} : s.claimReached p = true ↔
    ∃ c, s.index.claims[p] = some c ∧ c.due = none ∧ (s.clock.now - c.deadline).toNat < 32768 := by
  unfold Station.claimReached
  cases hc : s.index.claims[p] with
  | none => simp
  | some c => simp [reached_iff]

theorem Station.entryReached_iff {i : EntryIndex} : s.entryReached i = true ↔
    (s.entry i).state ≠ .free ∧ ∃ k d, (s.entry i).deadline = some (k, d) ∧ (s.clock.now - d).toNat < 32768 := by
  unfold Station.entryReached
  cases hd : (s.entry i).deadline with
  | none => simp
  | some x =>
    obtain ⟨k, d⟩ := x
    simp [Entry.live, reached_iff]

theorem Station.peerReached_iff {p : StationNo} : s.peerReached p = true ↔
    (s.peer p).state = .serving ∧ (s.peer p).silence = false ∧
      (s.clock.now - ((s.peer p).lastHeard + 48)).toNat < 32768 := by
  simp only [Station.peerReached, Config.silenceTicks, Bool.and_eq_true, beq_iff_eq, Bool.not_eq_true', reached_iff,
    and_assoc]

theorem Station.beaconReached_iff : s.beaconReached = true ↔
    ∃ d, s.roster.beaconDeadline = some d ∧ (s.clock.now - d).toNat < 32768 := by
  unfold Station.beaconReached
  cases hd : s.roster.beaconDeadline with
  | none => simp
  | some d => simp [reached_iff]

/-! ### The positions of the peer table (R153) -/

theorem peerNo_toNat (n : Fin 15) : (peerNo n).toNat = n := by
  simp only [peerNo, BitVec.toNat_ofNat]
  omega

theorem peerNo_injective : Function.Injective peerNo := fun m n h =>
  Fin.ext (by rw [← peerNo_toNat m, ← peerNo_toNat n, h])

/-- Only 15 has no record, so a peer that reads as SERVING has a position in the table. -/
theorem Station.exists_peerNo_of_serving {p : StationNo} (h : (s.peer p).state = .serving) : ∃ n, peerNo n = p := by
  by_cases hp : p.toNat < 15
  · exact ⟨⟨p.toNat, hp⟩, BitVec.eq_of_toNat_eq (peerNo_toNat _)⟩
  · simp [Station.peer, hp] at h

/-! ### The list of the deadlines found reached -/

theorem Station.claim_mem_deadlinesReached {p : ClaimPos} :
    Deadline.claim p ∈ s.deadlinesReached ↔ s.claimReached p = true := by
  simp [Station.deadlinesReached]

theorem Station.entry_mem_deadlinesReached {i : EntryIndex} :
    Deadline.entry i ∈ s.deadlinesReached ↔ s.entryReached i = true := by
  simp [Station.deadlinesReached]

theorem Station.peer_mem_deadlinesReached {p : StationNo} :
    Deadline.peer p ∈ s.deadlinesReached ↔ s.peerReached p = true := by
  have hmem : Deadline.peer p ∈ s.deadlinesReached ↔ (∃ n, peerNo n = p) ∧ s.peerReached p = true := by
    simp [Station.deadlinesReached]
  exact hmem.trans (and_iff_right_of_imp fun h => Station.exists_peerNo_of_serving (Station.peerReached_iff.1 h).1)

theorem Station.beacon_mem_deadlinesReached : Deadline.beacon ∈ s.deadlinesReached ↔ s.beaconReached = true := by
  simp [Station.deadlinesReached]

/-- Each position is tested once, and the four blocks' deadlines are of different kinds. -/
theorem Station.deadlinesReached_nodup : s.deadlinesReached.Nodup := by
  have hclaims := ((List.nodup_finRange 128).filter s.claimReached).map (f := Deadline.claim)
    fun _ _ => Deadline.claim.inj
  have hentries := ((List.nodup_finRange 256).filter s.entryReached).map (f := Deadline.entry)
    fun _ _ => Deadline.entry.inj
  have hpeers := (((List.nodup_finRange 15).map peerNo_injective).filter s.peerReached).map (f := Deadline.peer)
    fun _ _ => Deadline.peer.inj
  have hbeacon : (if s.beaconReached then [Deadline.beacon] else []).Nodup := by split <;> simp
  refine ((hclaims.append hentries ?_).append hpeers ?_).append hbeacon ?_
  · simp [List.disjoint_left]
  · simp only [List.disjoint_left, List.mem_append, List.mem_map]
    rintro _ (⟨_, -, rfl⟩ | ⟨_, -, rfl⟩) <;> simp
  · simp only [List.disjoint_left, List.mem_append, List.mem_map]
    rintro _ ((⟨_, -, rfl⟩ | ⟨_, -, rfl⟩) | ⟨_, -, rfl⟩) <;> simp

end Tests

/-! ### One period of the reference clock, one advance (R161, R162) -/

section Periods
variable {s : Station}

theorem Station.refclkPeriod_stopped (h : s.clock.running = false) : s.refclkPeriod = s := by
  simp [Station.refclkPeriod, h]

theorem Station.refclkPeriod_counts (h : s.clock.running = true)
    (hd : s.clock.divider + 1 < Config.tickLength s.control.straps.tickTap) :
    s.refclkPeriod = { s with clock.divider := s.clock.divider + 1 } := by
  simp [Station.refclkPeriod, h, hd]

theorem Station.refclkPeriod_advances (h : s.clock.running = true)
    (hd : Config.tickLength s.control.straps.tickTap ≤ s.clock.divider + 1) : s.refclkPeriod = s.advanceClock := by
  simp [Station.refclkPeriod, h, Nat.not_lt.2 hd]

theorem step_nil_acted (ha : s.DeadlinesActed) : step ⟨s, []⟩ = .next ⟨s.refclkPeriod, []⟩ := by
  rw [step_nil, Station.settled_of_acted ha]

theorem exec_leaseTick_acted (ha : s.DeadlinesActed) (q : List Instr) :
    exec .leaseTick ⟨s, q⟩ = .next ⟨if s.clock.running then s.advanceClock else s, q⟩ :=
  runEvent_acted (fun t => if t.clock.running then t.advanceClock else t) ha q

theorem exec_leaseTick_stopped (ha : s.DeadlinesActed) (h : s.clock.running = false) (q : List Instr) :
    exec .leaseTick ⟨s, q⟩ = .next ⟨s, q⟩ := by
  simp only [exec_leaseTick_acted ha, h, Bool.false_eq_true, if_false]

theorem exec_leaseTick_running (ha : s.DeadlinesActed) (h : s.clock.running = true) (q : List Instr) :
    exec .leaseTick ⟨s, q⟩ = .next ⟨s.advanceClock, q⟩ := by
  rw [exec_leaseTick_acted ha, if_pos h]

end Periods

/-- The station that the blocks test at an advance: the counter at its new value, no deadline on the list yet. -/
def Station.atNextTick (s : Station) : Station :=
  { s with clock :=
    { s.clock with now := s.clock.now + 1, divider := 0, advances := s.clock.advances + 1, reached := [] } }

theorem Station.advanceClock_eq (s : Station) : s.advanceClock = { s with clock :=
    { s.clock with
      now := s.clock.now + 1, divider := 0, advances := s.clock.advances + 1,
      reached := s.atNextTick.deadlinesReached } } := rfl

/-- Settles O2: LEASE_TICK lists what each block's test finds at the new value of the counter. -/
theorem leaseClockAdvances : Obligations.LeaseClockAdvances := by
  refine ⟨fun s ha => ⟨fun hr => ⟨?_, exec_leaseTick_stopped ha hr⟩, fun hr hd => ?_, fun hr hd => ?_⟩,
    fun s q ha hr => ⟨s.atNextTick.deadlinesReached, ?_, Station.deadlinesReached_nodup, fun p => ?_, fun i => ?_,
      fun p => ?_, ?_⟩⟩
  · rw [step_nil_acted ha, Station.refclkPeriod_stopped hr]
  · rw [step_nil_acted ha, Station.refclkPeriod_counts hr hd]
  · rw [step_nil_acted ha, Station.refclkPeriod_advances hr hd, exec_leaseTick_running ha hr]
  · rw [exec_leaseTick_running ha hr, Station.advanceClock_eq]
  · exact Station.claim_mem_deadlinesReached.trans Station.claimReached_iff
  · exact Station.entry_mem_deadlinesReached.trans Station.entryReached_iff
  · exact Station.peer_mem_deadlinesReached.trans Station.peerReached_iff
  · exact Station.beacon_mem_deadlinesReached.trans Station.beaconReached_iff

end Sys2Proof.Machine
end

section
namespace Sys2Proof.Machine

/-! ### The bytes of an access (R167) -/

/-- A bit of the mask is the bit of its byte. -/
theorem getLsbD_byteMask (bytes : BitVec 4) {k j : Nat} (hk : k < 4) (hj : j < 8) :
    (byteMask bytes).getLsbD (8 * k + j) = bytes.getLsbD k := by
  have hbyte : ∀ b : Bool, (if b then 0xFF#8 else 0#8).getLsbD j = b := fun b => by
    cases b with
    | false => simp
    | true =>
      have hall : (255#8).getLsbD j = decide (j < 8) := BitVec.getLsbD_allOnes (v := 8)
      simpa [hj] using hall
  unfold byteMask
  simp only [BitVec.getLsbD_append]
  interval_cases k
  · rw [if_pos (by omega), Nat.mul_zero, Nat.zero_add, hbyte]
  · rw [if_neg (by omega), if_pos (by omega), Nat.add_sub_cancel_left, hbyte]
  · rw [if_neg (by omega), if_neg (by omega), if_pos (by omega), show 8 * 2 + j - 8 - 8 = j by omega, hbyte]
  · rw [if_neg (by omega), if_neg (by omega), if_neg (by omega), show 8 * 3 + j - 8 - 8 - 8 = j by omega, hbyte]

/-- A byte that the access names is the new one, any other stays. -/
theorem mergeBytes_byte (bytes : BitVec 4) (old new : Word) {k : Nat} (hk : k < 4) :
    (mergeBytes bytes old new).extractLsb' (8 * k) 8 =
      if bytes.getLsbD k then new.extractLsb' (8 * k) 8 else old.extractLsb' (8 * k) 8 := by
  refine BitVec.eq_of_getLsbD_eq fun j hj => ?_
  have hlt : 8 * k + j < 32 := by omega
  rw [apply_ite (BitVec.getLsbD · j)]
  simp only [mergeBytes, BitVec.getLsbD_extractLsb', BitVec.getLsbD_or, BitVec.getLsbD_and, BitVec.getLsbD_not,
    getLsbD_byteMask bytes hk hj, hj, hlt]
  cases bytes.getLsbD k <;> simp

/-- A word is its four bytes. -/
theorem word_eq_of_bytes {x y : Word} (h : ∀ k, k < 4 → x.extractLsb' (8 * k) 8 = y.extractLsb' (8 * k) 8) :
    x = y := by
  refine BitVec.eq_of_getLsbD_eq fun i hi => ?_
  have hbyte := congrArg (BitVec.getLsbD · (i % 8)) (h (i / 8) (by omega))
  simpa [Nat.mod_lt, Nat.div_add_mod] using hbyte

/-- Bytes not written or not asked for are zero. -/
theorem mergeBytes_zero_byte (bytes : BitVec 4) (x : Word) {k : Nat} (hk : k < 4) :
    (mergeBytes bytes 0 x).extractLsb' (8 * k) 8 = if bytes.getLsbD k then x.extractLsb' (8 * k) 8 else 0 := by
  have hzero : (0 : Word).extractLsb' (8 * k) 8 = 0 := BitVec.extractLsb'_zero
  rw [mergeBytes_byte bytes 0 x hk, hzero]

/-- The header that a write of the command word stands for. -/
theorem mergeBytes_zero_eq {bytes : BitVec 4} {value header : Word}
    (h : ∀ k, k < 4 → header.extractLsb' (8 * k) 8 = if bytes.getLsbD k then value.extractLsb' (8 * k) 8 else 0) :
    mergeBytes bytes 0 value = header :=
  word_eq_of_bytes fun k hk => (mergeBytes_zero_byte bytes value hk).trans (h k hk).symm

theorem mergeBytes_zero_zero (bytes : BitVec 4) : mergeBytes bytes 0 0 = 0 := by
  refine mergeBytes_zero_eq fun k _ => ?_
  have hzero : (0 : Word).extractLsb' (8 * k) 8 = 0 := BitVec.extractLsb'_zero
  rw [hzero, ite_self]

/-! ### The window while no reset pin is asserted, and while one is (R167 to R169, R175, R178) -/

section Window
variable {s : Station}

/-- A write of a staging word (R168). -/
theorem exec_stagingWrite_open (ha : s.DeadlinesActed) (h : s.inReset = false) (q : List Instr) (i : Fin 16)
    (bytes : BitVec 4) (value : Word) : exec (.stagingWrite i bytes value) ⟨s, q⟩ = .next ⟨{ s with port :=
      { s.port with staging := s.port.staging.set i (mergeBytes bytes s.port.staging[i] value) } }, q⟩ := by
  simp [exec, execStagingWrite, Station.settled_of_acted ha, h]

/-- A write of the command word pushes a header (R169). -/
theorem exec_commandWordWrite_open (ha : s.DeadlinesActed) (h : s.inReset = false) (q : List Instr)
    (bytes : BitVec 4) (value : Word) : exec (.commandWordWrite bytes value) ⟨s, q⟩ =
      .next ⟨{ s with port := s.port.pushHeader (mergeBytes bytes 0 value) }, q⟩ := by
  simp [exec, execCommandWordWrite, Station.settled_of_acted ha, h]

/-- Writes while a reset pin is asserted are dropped (R167). -/
theorem exec_stagingWrite_inReset (ha : s.DeadlinesActed) (h : s.inReset = true) (q : List Instr) (i : Fin 16)
    (bytes : BitVec 4) (value : Word) : exec (.stagingWrite i bytes value) ⟨s, q⟩ = .next ⟨s, q⟩ := by
  simp [exec, execStagingWrite, Station.settled_of_acted ha, h]

theorem exec_commandWordWrite_inReset (ha : s.DeadlinesActed) (h : s.inReset = true) (q : List Instr)
    (bytes : BitVec 4) (value : Word) : exec (.commandWordWrite bytes value) ⟨s, q⟩ = .next ⟨s, q⟩ := by
  simp [exec, execCommandWordWrite, Station.settled_of_acted ha, h]

theorem Station.windowWord_inReset (h : s.inReset = true) (offset : Nat) : s.windowWord offset = 0 := if_pos h

theorem Station.windowWord_staging (h : s.inReset = false) (i : Fin 16) :
    s.windowWord (4 * i.val) = s.port.staging[i] := by
  have hdiv : 4 * i.val / 4 = i.val := Nat.mul_div_cancel_left _ (by decide)
  simp [Station.windowWord, h, hdiv]

theorem Station.windowWord_report (h : s.inReset = false) : s.windowWord 0x80 = s.port.oldest := by
  simp [Station.windowWord, h]

theorem Station.windowWord_status (h : s.inReset = false) : s.windowWord 0x84 = s.statusWord := by
  simp [Station.windowWord, h]

/-- A read of the report word takes the oldest word, if there is one (R175). -/
theorem exec_reportWordRead_open (ha : s.DeadlinesActed) (h : s.inReset = false) (q : List Instr) (bytes : BitVec 4) :
    exec (.reportWordRead bytes) ⟨s, q⟩ = .next ⟨{ s with port := { s.port with
      readData := mergeBytes bytes 0 s.port.oldest, reports := s.port.reports.tail } }, q⟩ := by
  simp [exec, execReportWordRead, Station.settled_of_acted ha, h, Station.windowWord_report h]

/-- A read of the status word clears OVERRUN (R178). -/
theorem exec_statusWordRead_open (ha : s.DeadlinesActed) (h : s.inReset = false) (q : List Instr) (bytes : BitVec 4) :
    exec (.statusWordRead bytes) ⟨s, q⟩ = .next ⟨{ s with port := { s.port with
      readData := mergeBytes bytes 0 s.statusWord, overrun := false } }, q⟩ := by
  simp [exec, execStatusWordRead, Station.settled_of_acted ha, h, Station.windowWord_status h]

/-- Reads while a reset pin is asserted return 0 (R167). -/
theorem exec_reads_inReset (ha : s.DeadlinesActed) (h : s.inReset = true) (q : List Instr) (bytes : BitVec 4) :
    exec (.reportWordRead bytes) ⟨s, q⟩ = .next ⟨{ s with port := { s.port with readData := 0 } }, q⟩ ∧
    exec (.statusWordRead bytes) ⟨s, q⟩ = .next ⟨{ s with port := { s.port with readData := 0 } }, q⟩ := by
  have hzero : ∀ offset, mergeBytes bytes 0 (s.windowWord offset) = 0 := fun offset => by
    rw [Station.windowWord_inReset h, mergeBytes_zero_zero]
  simp only [exec, execReportWordRead, execStatusWordRead, runEvent_eq, Station.settled_of_acted ha, h, hzero, if_true,
    and_self]

end Window

/-! ### The header pushed with its staged arguments, or dropped (R169) -/

section Push
variable {header : Word} {p : Port}

theorem Port.pushHeader_room (h : p.fifo.length < 32) :
    p.pushHeader header = { p with fifo := p.fifo ++ [p.entryOf header] } := if_pos h

theorem Port.pushHeader_full (h : 32 ≤ p.fifo.length) : p.pushHeader header = { p with overrun := true } :=
  if_neg (Nat.not_lt.2 h)

@[simp] theorem Port.pushHeader_staging (header : Word) (p : Port) : (p.pushHeader header).staging = p.staging := by
  unfold Port.pushHeader
  split <;> rfl

/-- The argument count of a header (R169). -/
theorem Port.entryOf_args_length :
    (p.entryOf header).args.length = min 16 (header.toNat / 256 % 32) := by
  simp [Port.entryOf, Nat.shiftRight_eq_div_pow, Nat.min_comm]

/-- Argument word k is a copy of staging word k. -/
theorem Port.entryOf_args_getElem {k : Nat} (h : k < (p.entryOf header).args.length) (h' : k < 16) :
    (p.entryOf header).args[k] = p.staging[k] := by
  simp [Port.entryOf]

end Push

/-! ### The fields of the status word (R178, R181, Table 10.5) -/

theorem getLsbD_fieldAt {w : Nat} (lo : Nat) (x : BitVec w) (i : Nat) :
    (fieldAt lo x).getLsbD i = (decide (i < 32) && !decide (i < lo) && x.getLsbD (i - lo)) := by
  by_cases hi : i < 32
  · simp [fieldAt, hi]
  · simp [fieldAt, hi]

/-- A field reads back as its value. -/
theorem extractLsb'_fieldAt_self {lo w : Nat} (h : lo + w ≤ 32) (x : BitVec w) :
    (fieldAt lo x).extractLsb' lo w = x := by
  refine BitVec.eq_of_getLsbD_eq fun i hi => ?_
  have hlt : lo + i < 32 := by omega
  rw [BitVec.getLsbD_extractLsb', getLsbD_fieldAt]
  simp [hi, hlt]

/-- The bits apart from it are 0. -/
theorem extractLsb'_fieldAt_apart {lo w start len : Nat} (h : start + len ≤ lo ∨ lo + w ≤ start) (x : BitVec w) :
    (fieldAt lo x).extractLsb' start len = 0 := by
  refine BitVec.eq_of_getLsbD_eq fun i hi => ?_
  rw [BitVec.getLsbD_extractLsb', getLsbD_fieldAt]
  rcases h with hbelow | habove
  · have hlt : start + i < lo := by omega
    simp [hlt]
  · have hle : w ≤ start + i - lo := by omega
    simp [BitVec.getLsbD_of_ge _ _ hle]

section Status
variable {s : Station}

theorem Station.statusWord_room (h : s.port.fifo.length ≤ 32) :
    (s.statusWord.extractLsb' 0 6).toNat = 32 - s.port.fifo.length := by
  have hfield : s.statusWord.extractLsb' 0 6 = BitVec.ofNat 6 (32 - s.port.fifo.length) := by
    simp (disch := decide) [Station.statusWord, Config.commandFifoMax, BitVec.extractLsb'_or, extractLsb'_fieldAt_self,
      extractLsb'_fieldAt_apart]
  rw [hfield, BitVec.toNat_ofNat, Nat.mod_eq_of_lt (by omega)]

theorem Station.statusWord_level (h : s.port.level ≤ 1024) :
    (s.statusWord.extractLsb' 8 11).toNat = s.port.reports.length := by
  have hfield : s.statusWord.extractLsb' 8 11 = BitVec.ofNat 11 s.port.level := by
    simp (disch := decide) [Station.statusWord, BitVec.extractLsb'_or, extractLsb'_fieldAt_self,
      extractLsb'_fieldAt_apart]
  rw [hfield, BitVec.toNat_ofNat, Nat.mod_eq_of_lt (by omega)]
  rfl

theorem Station.statusWord_state (s : Station) : s.statusWord.extractLsb' 20 2 = s.control.state.code := by
  simp (disch := decide) [Station.statusWord, BitVec.extractLsb'_or, extractLsb'_fieldAt_self,
    extractLsb'_fieldAt_apart]

theorem Station.statusWord_flags (s : Station) :
    s.statusWord.getLsbD 24 = s.port.overrun ∧ s.statusWord.getLsbD 25 = s.port.requestLine := by
  simp only [Station.statusWord, BitVec.getLsbD_or, getLsbD_fieldAt]
  simp

/-- Every other bit is 0. -/
theorem Station.statusWord_reserved (s : Station) :
    s.statusWord.extractLsb' 6 2 = 0 ∧ s.statusWord.extractLsb' 19 1 = 0 ∧ s.statusWord.extractLsb' 22 2 = 0 ∧
    s.statusWord.extractLsb' 26 6 = 0 := by
  simp (disch := decide) [Station.statusWord, BitVec.extractLsb'_or, extractLsb'_fieldAt_apart]

end Status

/-- Settles O20. -/
theorem windowAccessesTakeEffect : Obligations.WindowAccessesTakeEffect := by
  refine ⟨fun s ha q bytes value header hheader => ?_, fun s ha q bytes => ⟨fun h oldest rest hr => ?_, fun h hr => ?_,
    fun h => exec_reads_inReset ha h q bytes, fun h hb => ?_⟩⟩
  · rw [← mergeBytes_zero_eq hheader]
    refine ⟨fun h hroom => ⟨_, Port.entryOf_args_length, fun _ => Port.entryOf_args_getElem, ?_⟩, fun h hfull => ?_,
      fun h => exec_commandWordWrite_inReset ha h q bytes value⟩
    · rw [exec_commandWordWrite_open ha h, Port.pushHeader_room hroom]
      rfl
    · rw [exec_commandWordWrite_open ha h, Port.pushHeader_full hfull]
  · have holdest : s.port.oldest = oldest := by rw [Port.oldest, hr]; rfl
    refine ⟨_, fun k hk => mergeBytes_zero_byte bytes oldest hk, ?_⟩
    rw [exec_reportWordRead_open ha h, holdest, hr]
    rfl
  · have hzero : s.port.oldest = 0 := by rw [Port.oldest, hr]; rfl
    rw [exec_reportWordRead_open ha h, hzero, mergeBytes_zero_zero, hr, List.tail_nil, ← hr]
  · obtain ⟨hoverrun, hrequest⟩ := s.statusWord_flags
    obtain ⟨h6, h19, h22, h26⟩ := s.statusWord_reserved
    refine ⟨s.statusWord, _, Station.statusWord_room hb.commands, Station.statusWord_level hb.reports, ?_, hoverrun,
      hrequest, h6, h19, h22, h26, fun k hk => mergeBytes_zero_byte bytes s.statusWord hk,
      exec_statusWordRead_open ha h q bytes⟩
    rw [s.statusWord_state]
    cases s.control.state <;> rfl

/-! ### What touches the port: the staging area (R168) -/

/-- The commands that may touch a field of the port once the deadlines are acted on. -/
def Instr.touchesPort : Instr → Bool
  | .coldReset | .warmReset | .stagingWrite _ _ _ | .reportWordRead _ | .statusWordRead _ | .commandWordWrite _ _
  | .poolSet | .configure | .start | .stats | .unknownCommand | .openLane | .segment | .stored | .storeFailed | .close
  | .suspend | .resume | .abort | .release | .reportAppend => true
  | _ => false

/-- Every other command leaves it as it is. -/
theorem exec_port {c : Instr} (hd : Instr.isDeadlineRow c = false) (hc : Instr.touchesPort c = false) {s t : State}
    (h : exec c s = .next t) : t.station.port = s.station.port := by
  cases c with
  | coldRelease => simp [execColdRelease_frame h]
  | warmRelease => simp [execWarmRelease_frame h]
  | leaseTick => simp [execLeaseTick_frame h]
  | leaseExpiry => simp [execLeaseExpiry_frame h]
  | ask => simp [execAsk_frame h]
  | commit => simp [execCommit_frame h]
  | drop => simp [execDrop_frame h]
  | releaseItem => simp [execReleaseItem_frame h]
  | peerLost => simp [execPeerLost_frame h]
  | peerRestarted => simp [execPeerRestarted_frame h]
  | bucketWriteDone => simp [execBucketWriteDone_frame h]
  | answerHandOn => simp [execAnswerHandOn_frame h]
  | workQueueAdmit => simp [execWorkQueueAdmit_frame h]
  | scrubWriteDone => simp [execScrubWriteDone_frame h]
  | burstIssue => simp [execBurstIssue_frame h]
  | fetchReadCompletion => simp [execFetchReadCompletion_frame h]
  | fetchTimeout => simp [execFetchTimeout_frame h]
  | burstCompletion => simp [execBurstCompletion_frame h]
  | digestStart => simp [execDigestStart_frame h]
  | digestCompletion => simp [execDigestCompletion_frame h]
  | tagGrant => simp [execTagGrant_frame h]
  | requestHandOn => simp [execRequestHandOn_frame h]
  | exchangeReportReady => simp [execExchangeReportReady_frame h]
  | laneReportReady => simp [execLaneReportReady_frame h]
  | contention => simp [execContention_frame h]
  | attemptEnd => simp [execAttemptEnd_frame h]
  | yieldClear => simp [execYieldClear_frame h]
  | frameReceived => simp [execFrameReceived_frame h]
  | frameAbandoned => simp [execFrameAbandoned_frame h]
  | inboundDispatch => simp [execInboundDispatch_frame h]
  | peerSilent => simp [execPeerSilent_frame h]
  | peerJoin => simp [execPeerJoin_frame h]
  | beaconTaken => simp [execBeaconTaken_frame h]
  | conflictReport => simp [execConflictReport_frame h]
  | leaseDeadline | answerDeadline | holdDeadline | orphanHoldDeadline | silenceDeadline | beaconDue => cases hd
  | _ => cases hc

@[simp] theorem Station.refuse_staging (e : CmdEntry) (l : LaneNo) (x : CmdErrorCode) (s : Station) :
    (s.refuse e l x).port.staging = s.port.staging := rfl

@[simp] theorem Station.tellProducer_staging (p : Producer) (r : Report) (s : Station) :
    (s.tellProducer p r).port.staging = s.port.staging := by
  cases p with
  | lane => cases r <;> simp [Station.tellProducer]
  | _ => rfl

@[simp] theorem Station.appendReport_staging (p : Producer) (r : Report) (s : Station) :
    (s.appendReport p r).port.staging = s.port.staging := by
  unfold Station.appendReport
  split <;> simp

@[simp] theorem Station.decidePoolSet_staging (e : CmdEntry) (s : Station) :
    (s.decidePoolSet e).port.staging = s.port.staging := by
  unfold Station.decidePoolSet
  (repeat' split) <;> rfl

@[simp] theorem Station.decideConfigure_staging (e : CmdEntry) (s : Station) :
    (s.decideConfigure e).port.staging = s.port.staging := by
  unfold Station.decideConfigure
  (repeat' split) <;> rfl

section Decisions
variable {e : CmdEntry} {s t : Station}

theorem Station.decideStart_staging (h : s.decideStart e = some t) : t.port.staging = s.port.staging := by
  unfold Station.decideStart at h
  (repeat' split at h) <;> cases h
  · rfl
  · simp
  · rfl

theorem Station.decideStats_staging (h : s.decideStats = some t) : t.port.staging = s.port.staging := by
  unfold Station.decideStats at h
  split at h <;> cases h
  rfl

theorem Station.decideRelease_staging (h : s.decideRelease e = some t) : t.port.staging = s.port.staging := by
  unfold Station.decideRelease at h
  (repeat' split at h) <;> cases h <;> rfl

/-- A command of the FIFO writes the staging area only where its decision does. -/
theorem Station.takeHead_staging {code : Nat} {decide : CmdEntry → Station → Option Station}
    (hd : ∀ e x t, decide e x = some t → t.port.staging = x.port.staging) :
    (s.takeHead code decide).port.staging = s.port.staging :=
  Station.takeHead_keeps (fun x : Station => x.port.staging) (fun _ _ => rfl) hd

/-- And a lane command only where the lane unit touches the port, which it does not. -/
theorem Station.takeLaneCommand_staging {code : Nat} {decide : CmdEntry → Station → Except CmdErrorCode Station}
    (hd : ∀ e x t, decide e x = .ok t → t.port = x.port) :
    (s.takeLaneCommand code decide).port.staging = s.port.staging :=
  Station.takeLaneCommand_keeps (fun x : Station => x.port.staging) (fun _ _ => rfl) (fun _ _ _ _ => rfl)
    fun e x t h => congrArg Port.staging (hd e x t h)

end Decisions

/-- The commands that write the staging area: the two resets and STAGING_WRITE. -/
def Instr.writesStaging : Instr → Bool
  | .coldReset | .warmReset | .stagingWrite _ _ _ => true
  | _ => false

theorem exec_staging {c : Instr} (hd : Instr.isDeadlineRow c = false) (hw : Instr.writesStaging c = false)
    {s t : State} (h : exec c s = .next t) : t.station.port.staging = s.station.port.staging := by
  cases hc : Instr.touchesPort c with
  | false => rw [exec_port hd hc h]
  | true =>
    have hs : s.station.settled.port.staging = s.station.port.staging := by simp
    rw [← hs]
    cases c with
    | coldReset | warmReset | stagingWrite => cases hw
    | reportWordRead | statusWordRead => cases h; dsimp only; split <;> rfl
    | commandWordWrite => cases h; dsimp only; split <;> simp
    | poolSet =>
      cases h
      exact Station.takeHead_staging (decide := fun e t => some (t.decidePoolSet e)) fun _ _ _ h => by cases h; simp
    | configure =>
      cases h
      exact Station.takeHead_staging (decide := fun e t => some (t.decideConfigure e)) fun _ _ _ h => by cases h; simp
    | start => cases h; exact Station.takeHead_staging fun _ _ _ h => Station.decideStart_staging h
    | stats => cases h; exact Station.takeHead_staging fun _ _ _ h => Station.decideStats_staging h
    | release => cases h; exact Station.takeHead_staging fun _ _ _ h => Station.decideRelease_staging h
    | openLane | resume =>
      cases h; exact Station.takeLaneCommand_staging fun _ _ _ h => (Station.setUpLane_blocks h).2.1
    | segment => cases h; exact Station.takeLaneCommand_staging fun _ _ _ h => by simp [Station.decideSegment_blocks h]
    | stored => cases h; exact Station.takeLaneCommand_staging fun _ _ _ h => by simp [Station.decideStored_blocks h]
    | storeFailed =>
      cases h; exact Station.takeLaneCommand_staging fun _ _ _ h => by simp [Station.decideStoreFailed_blocks h]
    | abort => cases h; exact Station.takeLaneCommand_staging fun _ _ _ h => by simp [Station.decideAbort_blocks h]
    | close | suspend => cases h; exact Station.takeLaneCommand_staging fun _ _ _ h => by simp [Station.endLane_blocks h]
    | unknownCommand => cases h; dsimp only; (repeat' split) <;> rfl
    | reportAppend => cases h; dsimp only; (repeat' split) <;> simp
    | _ => cases hc

/-- No other step writes it either. -/
theorem step_staging {p : List Instr} {s : Station} {t : State} (h : step ⟨s, p⟩ = .next t)
    (hne : t.station.port.staging ≠ s.port.staging) : ∃ c, p.head? = some c ∧ Instr.writesStaging c = true := by
  cases p with
  | nil => cases h; exact absurd (by simp) hne
  | cons c rest =>
    refine ⟨c, rfl, eq_true_of_ne_false fun hw => hne ?_⟩
    cases hd : Instr.isDeadlineRow c with
    | false => exact exec_staging hd hw h
    | true => rcases exec_deadlineRow hd h with e | ⟨d, -, ds, e⟩ <;> simp [e]

/-- Settles O19. -/
theorem stagingAreaHoldsWhatIsWritten : Obligations.StagingAreaHoldsWhatIsWritten := by
  intro s ha q i bytes value
  refine ⟨fun h => ⟨_, fun k hk => mergeBytes_byte bytes s.port.staging[i] value hk,
      exec_stagingWrite_open ha h q i bytes value⟩,
    fun h => exec_stagingWrite_inReset ha h q i bytes value, fun h => Station.windowWord_staging h i,
    fun t ht => exec_staging rfl rfl ht, fun h hroom t ht => ?_, fun t ht => ?_, fun hp t ht => ?_, fun p t ht hne => ?_⟩
  · rw [exec_commandWordWrite_open ha h, Port.pushHeader_room hroom] at ht
    cases ht
    exact ⟨_, rfl, fun _ => Port.entryOf_args_getElem⟩
  · rw [exec_coldReset_station] at ht
    cases ht
    exact (s.settled.resetBlocks_blocksReset _).staging i
  · rw [exec_warmReset_station hp] at ht
    cases ht
    exact (s.settled.resetBlocks_blocksReset _).staging i
  · obtain ⟨c, hhead, hw⟩ := step_staging ht hne
    cases c with
    | coldReset => exact .inl hhead
    | warmReset => exact .inr (.inl hhead)
    | stagingWrite j b v => exact .inr (.inr ⟨j, b, v, hhead⟩)
    | _ => cases hw

end Sys2Proof.Machine
end

section
namespace Sys2Proof.Machine

/-! ### The words of reports (R174, R181, Tables 10.6 and 10.7) -/

/-- A field as a number: the value times the weight of its lowest bit. -/
theorem fieldAt_eq_word {w : Nat} (lo : Nat) (x : BitVec w) : fieldAt lo x = word (2 ^ lo * x.toNat) := by
  refine BitVec.eq_of_toNat_eq ?_
  rw [fieldAt, word, BitVec.toNat_shiftLeft, BitVec.toNat_setWidth, BitVec.toNat_ofNat, Nat.shiftLeft_eq,
    Nat.mul_comm (2 ^ lo), Nat.mod_mul_mod]

/-- A number that its field holds. -/
theorem fieldAt_ofNat {w n : Nat} (h : n < 2 ^ w) : fieldAt 0 (BitVec.ofNat w n) = word n := by
  rw [fieldAt_eq_word, BitVec.toNat_ofNat, Nat.mod_eq_of_lt h, pow_zero, Nat.one_mul]

theorem fieldAt_zero {w : Nat} (x : BitVec w) : fieldAt 0 x = word x.toNat := by
  rw [fieldAt_eq_word, pow_zero, Nat.one_mul]

/-- A field above a number adds to it. -/
theorem word_or_fieldAt {n lo w : Nat} (h : n < 2 ^ lo) (x : BitVec w) :
    word n ||| fieldAt lo x = word (n + 2 ^ lo * x.toNat) := by
  rw [fieldAt_eq_word, word, word, word, ← BitVec.ofNat_or, Nat.or_comm, ← Nat.two_pow_add_eq_or_of_lt h, Nat.add_comm]

theorem Report.body_length_lt (r : Report) : r.body.length < 256 := by
  cases r <;> simp [Report.body, ParkedRecord.words, words48, words128]

/-- The header gives the kind, the lane and the number of body words (R174). -/
theorem Report.words_eq (r : Report) :
    r.words = headerWord r.kindCode.toNat r.lane.val r.body.length :: r.body := by
  have hkind : r.kindCode.toNat < 256 := r.kindCode.isLt
  have hlane : (BitVec.ofNat 5 r.lane.val).toNat = r.lane.val := Nat.mod_eq_of_lt r.lane.isLt
  have hcount : (BitVec.ofNat 8 r.body.length).toNat = r.body.length := Nat.mod_eq_of_lt r.body_length_lt
  have hlt : r.lane.val < 32 := r.lane.isLt
  rw [Report.words, Report.header, fieldAt_zero, word_or_fieldAt (by omega), word_or_fieldAt (by omega), hlane, hcount]
  rfl

theorem words48_eq (x : BitVec 48) : words48 x = lowHigh x := by
  have hlow : x.setWidth 32 = word (x.toNat % 2 ^ 32) := BitVec.eq_of_toNat_eq (by simp [word])
  have hhigh : (x.extractLsb' 32 16).setWidth 32 = word (x.toNat / 2 ^ 32) :=
    BitVec.eq_of_toNat_eq (by
      have := x.isLt
      simp only [word, BitVec.toNat_setWidth, BitVec.extractLsb'_toNat, BitVec.toNat_ofNat, Nat.shiftRight_eq_div_pow]
      omega)
  rw [words48, lowHigh, hlow, hhigh]

theorem words128_eq (x : Fingerprint) : words128 x = fourWords x := by
  have hpart : ∀ lo, x.extractLsb' lo 32 = word (x.toNat / 2 ^ lo % 2 ^ 32) := fun lo => BitVec.eq_of_toNat_eq (by
    simp [word, Nat.shiftRight_eq_div_pow])
  have htop : x.toNat / 2 ^ 96 % 2 ^ 32 = x.toNat / 2 ^ 96 := Nat.mod_eq_of_lt (by have := x.isLt; omega)
  rw [words128, fourWords, hpart, hpart, hpart, hpart, htop, pow_zero, Nat.div_one]

theorem ParkedRecord.words_eq (r : ParkedRecord) : r.words = recordWords r := by
  simp only [ParkedRecord.words, recordWords, words48_eq, fieldAt_eq_word, pow_zero, Nat.one_mul]

/-! #### The codes of Tables 10.4 and 10.7 -/

theorem Kind.code_table : ∀ x ∈ [(Kind.dup, 0, 0), (.new, 1, 0), (.unindexed .waitersFull, 2, 1),
    (.unindexed .claimsFull, 2, 2), (.unindexed .bucketFull, 2, 3), (.unindexed .poolIsolated, 2, 4),
    (.unindexed .ownerAbsent, 2, 5), (.unindexed .ownerRestarted, 2, 6), (.unindexed .noAnswer, 2, 7),
    (.unindexed .holdExpired, 2, 8), (.unindexed .notIndexed, 2, 9), (.doubt, 3, 0)],
    x.1.code.toNat = x.2.1 ∧ x.1.reasonCode.toNat = x.2.2 := by decide

theorem AbortReason.code_table : ∀ x ∈ [(AbortReason.host, 0), (.storeFailed, 1), (.fetchError, 2)],
    x.1.code.toNat = x.2 := by decide

theorem ReleasedOutcome.code_table : ∀ x ∈ [(ReleasedOutcome.reply .pinned, 0), (.reply .counted, 1),
    (.reply .retired, 2), (.reply .notFound, 3), (.undelivered, 4), (.uncertain, 5)], x.1.code.toNat = x.2 := by decide

theorem PeerEvent.word_table : ∀ x ∈ [(PeerEvent.joined, 0), (.returned, 1), (.silent, 2), (.restarted, 3),
    (.conflictOwnNumber, 4)], x.1.word = Machine.word x.2 ∧ x.2 < 2 ^ 8 := by decide

theorem CmdErrorCode.code_table : ∀ x ∈ [(CmdErrorCode.unknownCommand, 1), (.badState, 2), (.locked, 3),
    (.laneBusy, 4), (.laneFree, 5), (.laneEnding, 6), (.queueFull, 7), (.badLength, 8), (.badLocator, 9),
    (.notStoring, 10)], x.1.code.toNat = x.2 := by decide

/-! #### The words that hold more than one field (Table 10.6) -/

theorem startedWord_eq (f : Bool) (n c : BitVec 4) : fieldAt 0 (BitVec.ofBool f) ||| fieldAt 8 n ||| fieldAt 12 c =
    word (f.toNat + 256 * n.toNat + 4096 * c.toNat) := by
  have hf : f.toNat < 2 := f.toNat_lt
  have hn : n.toNat < 16 := n.isLt
  rw [fieldAt_zero, BitVec.toNat_ofBool, word_or_fieldAt (by omega), word_or_fieldAt (by omega)]
  rfl

theorem startRefusedWord_eq (n c : BitVec 4) :
    fieldAt 8 n ||| fieldAt 12 c = word (256 * n.toNat + 4096 * c.toNat) := by
  have hn : n.toNat < 16 := n.isLt
  rw [fieldAt_eq_word, word_or_fieldAt (by omega)]
  rfl

theorem openedWord_eq (b : Branch) (p : Pool) : fieldAt 0 b ||| fieldAt 16 p = word (b.toNat + 65536 * p.toNat) := by
  have hb : b.toNat < 4096 := b.isLt
  rw [fieldAt_zero, word_or_fieldAt (by omega)]
  rfl

theorem recipeWord_eq {n : Nat} (h : n < 131072) (k : Kind) :
    fieldAt 0 (BitVec.ofNat 17 n) ||| fieldAt 24 k.code ||| fieldAt 28 k.reasonCode =
      word (n + 2 ^ 24 * k.code.toNat + 2 ^ 28 * k.reasonCode.toNat) := by
  have hk : k.code.toNat < 4 := k.code.isLt
  rw [fieldAt_ofNat h, word_or_fieldAt (by omega), word_or_fieldAt (by omega)]

theorem releasedWord_eq (o : ReleasedOutcome) (c : Cookie) :
    fieldAt 0 o.code ||| fieldAt 16 c = word (o.code.toNat + 65536 * c.toNat) := by
  have ho : o.code.toNat < 8 := o.code.isLt
  rw [fieldAt_zero, word_or_fieldAt (by omega)]
  rfl

/-- The station's field lies below the cause and the cluster size heard. -/
theorem conflictWord_eq (p : StationNo) (heard : BitVec 4) :
    (PeerEvent.conflictClusterSize heard).word ||| fieldAt 8 p =
      word (4 + 256 * p.toNat + 65536 + 2 ^ 24 * heard.toNat) := by
  have hp : p.toNat < 16 := p.isLt
  have hword : (PeerEvent.conflictClusterSize heard).word = word 4 ||| fieldAt 16 1#1 ||| fieldAt 24 heard := rfl
  have hcause : (1#1).toNat = 1 := rfl
  rw [hword, BitVec.or_assoc, BitVec.or_assoc, BitVec.or_comm (fieldAt 24 heard), ← BitVec.or_assoc, ← BitVec.or_assoc,
    BitVec.or_assoc (word 4), BitVec.or_comm (fieldAt 16 1#1), ← BitVec.or_assoc, word_or_fieldAt (by omega),
    word_or_fieldAt (by omega), hcause, Nat.mul_one, word_or_fieldAt (by omega)]
  rfl

theorem cmdErrorWord_eq (code : Byte) (x : CmdErrorCode) :
    fieldAt 0 code ||| fieldAt 8 x.code = word (code.toNat + 256 * x.code.toNat) := by
  rw [fieldAt_zero, word_or_fieldAt code.isLt]
  rfl

/-- Settles O27: each body is its row of Table 10.6, and the header follows from it. -/
theorem reportsFollowTheirLayouts : Obligations.ReportsFollowTheirLayouts := by
  refine ⟨fun f n c => ?_, fun n c => ?_, fun l r p => ?_, fun l seq o n fp h => ?_,
    fun l seq o n fp k loc kind reason h hk => ?_, fun l seq => ?_, fun l r => ⟨?_, ?_⟩, fun l stream last a n o ha => ?_,
    fun l k loc => ⟨?_, ?_⟩, fun o n loc cookie ho => ?_, fun p ev n hev => ?_, fun p heard => ?_, fun b h => ?_,
    fun v => ?_, fun l code x n hx => ?_⟩
  · rw [Report.words_eq, Report.body, startedWord_eq]; rfl
  · rw [Report.words_eq, Report.body, startRefusedWord_eq]; rfl
  · rw [Report.words_eq, Report.body, openedWord_eq, words48_eq]; rfl
  · rw [Report.words_eq, Report.body, fieldAt_ofNat h, words48_eq, words128_eq]; rfl
  · obtain ⟨hkind, hreason⟩ : k.code.toNat = kind ∧ k.reasonCode.toNat = reason := Kind.code_table _ hk
    rw [Report.words_eq, Report.body, recipeWord_eq h, hkind, hreason, words48_eq, words48_eq, words128_eq]; rfl
  · rw [Report.words_eq]; rfl
  · rw [Report.words_eq, Report.body, r.words_eq]; rfl
  · rw [Report.words_eq, Report.body, r.words_eq]; rfl
  · have hcode : a.code.toNat = n := AbortReason.code_table _ ha
    rw [Report.words_eq, Report.body, fieldAt_zero, hcode, words48_eq]; rfl
  · rw [Report.words_eq, Report.body, fieldAt_zero, words48_eq, words128_eq]; rfl
  · rw [Report.words_eq, Report.body, fieldAt_zero, words48_eq, words128_eq]; rfl
  · have hcode : o.code.toNat = n := ReleasedOutcome.code_table _ ho
    rw [Report.words_eq, Report.body, releasedWord_eq, hcode, words48_eq]; rfl
  · obtain ⟨hword, hlt⟩ : ev.word = word n ∧ n < 2 ^ 8 := PeerEvent.word_table _ hev
    rw [Report.words_eq, Report.body, hword, word_or_fieldAt hlt]; rfl
  · rw [Report.words_eq, Report.body, conflictWord_eq]; rfl
  · rw [Report.words_eq, Report.body, fieldAt_ofNat h]; rfl
  · rw [Report.words_eq, Report.body, Vector.length_toList]; rfl
  · have hcode : x.code.toNat = n := CmdErrorCode.code_table _ hx
    rw [Report.words_eq, Report.body, cmdErrorWord_eq, hcode]; rfl

end Sys2Proof.Machine
end

section
namespace Sys2Proof.Machine

/-! ### The arbiter's turn (R176) -/

/-- In a list of rising keys the first element found is the one of least key. -/
theorem find?_eq_some_of_least {α : Type} {f : α → Nat} {P : α → Bool} {xs : List α} {x : α}
    (hxs : xs.Pairwise fun a b => f a < f b) (hmem : x ∈ xs) (hx : P x = true)
    (hleast : ∀ y, P y = true → f x ≤ f y) : xs.find? P = some x := by
  induction xs with
  | nil => cases hmem
  | cons a as ih =>
    obtain ⟨ha, has⟩ := List.pairwise_cons.1 hxs
    rcases List.mem_cons.1 hmem with rfl | hmem
    · exact List.find?_cons_of_pos hx
    · have hno : ¬P a = true := fun hp => Nat.not_lt.2 (hleast a hp) (ha x hmem)
      rw [List.find?_cons_of_neg hno, ih has hmem]

/-- The arbiter searches by rising distance from the producer last appended. -/
theorem Producer.after_pairwise (last : Producer) :
    last.after.Pairwise fun a b => Producer.distance last a < Producer.distance last b := by
  cases last <;> decide

theorem Producer.mem_after (last p : Producer) : p ∈ last.after := by
  cases last <;> cases p <;> decide

/-- The choice that waits, else the producer of least distance among those that hold a report. -/
theorem Station.arbiterTurn_eq {s : Station} {p : Producer} {r : Report} (hr : s.readyReport p = some r)
    (h : s.port.arbiterChoice = some p ∨ s.port.arbiterChoice = none ∧ ∀ p', s.readyReport p' ≠ none →
      Producer.distance s.port.arbiterLast p ≤ Producer.distance s.port.arbiterLast p') :
    s.arbiterTurn = some p := by
  unfold Station.arbiterTurn
  rcases h with hc | ⟨hc, hleast⟩
  · rw [hc]
  · rw [hc]
    exact find?_eq_some_of_least (Producer.after_pairwise _) (Producer.mem_after _ p) (by rw [hr]; rfl)
      fun p' hp' => hleast p' (Option.isSome_iff_ne_none.1 hp')

/-! ### REPORT_APPEND (R122, R174, R187) -/

section Append
variable {s : Station} {p : Producer} {r : Report}

theorem exec_reportAppend_eq (ha : s.DeadlinesActed) (ht : s.arbiterTurn = some p) (hr : s.readyReport p = some r)
    (q : List Instr) : exec .reportAppend ⟨s, q⟩ = .next ⟨s.appendReport p r, q⟩ := by
  simp [exec, execReportAppend, Station.settled_of_acted ha, ht, hr]

theorem Station.appendReport_waits (h : 1024 < s.port.reports.length + r.words.length) :
    s.appendReport p r = { s with port := { s.port with arbiterChoice := some p } } := by
  have hpos : 0 < r.words.length := Nat.succ_pos _
  have hfull : ¬r.words.length ≤ Config.reportFifoMax - s.port.level := by
    rw [Config.reportFifoMax, Port.level]
    omega
  exact if_neg hfull

/-- The port after an append: the words at the end of the FIFO, the pointer at the producer, no choice waiting. -/
def Port.appended (p : Producer) (r : Report) (x : Port) : Port :=
  { x with reports := x.reports ++ r.words, arbiterLast := p, arbiterChoice := none }

theorem Station.appendReport_fits (h : s.port.reports.length + r.words.length ≤ 1024) :
    s.appendReport p r = { s with port := s.port.appended p r }.tellProducer p r := by
  have hroom : r.words.length ≤ Config.reportFifoMax - s.port.level := by
    rw [Config.reportFifoMax, Port.level]
    omega
  exact if_pos hroom

theorem Control.reportAppended_owed {c : Control} {f : Bool} (h : c.startedOwed = some f) : c.reportAppended =
    { c with ready := some (.started f c.straps.number c.straps.clusterSize), startedOwed := none } := by
  rw [Control.reportAppended, h]

theorem Control.reportAppended_none {c : Control} (h : c.startedOwed = none) :
    c.reportAppended = { c with ready := none } := by
  rw [Control.reportAppended, h]

section Recipe
variable {l : LaneNo} {seq : Word}

/-- The entry bound to the slot reported is freed, or is left with the report it owes (R80, R122). -/
theorem Station.recipeReported_bound {i : EntryIndex} (h : s.BoundAt l seq i) :
    s.recipeReported l seq = s.setEntry i (s.entry i).freedOrOwing := by
  rw [Station.recipeReported, Station.boundEntry_eq_some.2 h, ← Entry.release_eq]

theorem Station.recipeReported_unbound (h : ∀ i, ¬s.BoundAt l seq i) : s.recipeReported l seq = s := by
  have hnone : s.boundEntry ⟨l, seq⟩ = none := Option.eq_none_iff_forall_ne_some.2 fun i hi =>
    h i (Station.boundEntry_eq_some.1 hi)
  rw [Station.recipeReported, hnone]

end Recipe

/-- At a RECIPE of a bound slot the lane unit and the exchange unit are told, the port being as it may. -/
theorem Station.tellProducer_lane_bound (x : Port) {l : LaneNo} {seq : Word} {i : EntryIndex} (h : s.BoundAt l seq i)
    (o : Offset) (n : Nat) (fp : Fingerprint) (k : Kind) (loc : Locator) :
    { s with port := x }.tellProducer .lane (.recipe l seq o n fp k loc) = { s with
      port := x
      lane := { s.lane with ready := none }
      exchange := { s.exchange with entries := s.exchange.entries.set i (s.entry i).freedOrOwing } } :=
  Station.recipeReported_bound (s := { s with port := x, lane := { s.lane with ready := none } }) h

/-- At any other report of the lane unit no other block is told. -/
theorem Station.tellProducer_lane_unbound (x : Port)
    (h : ∀ l seq o n fp k loc i, r = .recipe l seq o n fp k loc → ¬s.BoundAt l seq i) :
    { s with port := x }.tellProducer .lane r = { s with port := x, lane := { s.lane with ready := none } } := by
  cases r with
  | recipe l seq o n fp k loc =>
    exact Station.recipeReported_unbound (s := { s with port := x, lane := { s.lane with ready := none } })
      fun i => h l seq o n fp k loc i rfl
  | _ => rfl

end Append

/-- Settles O29. -/
theorem reportsAppendedWholeInTurn : Obligations.ReportsAppendedWholeInTurn := by
  intro s ha q p r hturn hr
  rw [exec_reportAppend_eq ha (Station.arbiterTurn_eq hr hturn) hr]
  refine ⟨fun hfull => by rw [Station.appendReport_waits hfull], fun hroom => ?_⟩
  rw [Station.appendReport_fits hroom]
  refine ⟨?_, ?_, ?_, ?_, ?_, ?_, ?_⟩
  · rintro rfl ho
    rw [Station.tellProducer, Control.reportAppended_none ho]
    rfl
  · rintro f rfl ho
    rw [Station.tellProducer, Control.reportAppended_owed ho]
    rfl
  · rintro rfl; rfl
  · rintro rfl; rfl
  · rintro rfl; rfl
  · rintro rfl; rfl
  · rintro rfl
    refine ⟨fun l seq o n fp k loc i hrec hb => ?_, fun hno => ?_⟩
    · subst hrec
      rw [Station.tellProducer_lane_bound _ hb]
      rfl
    · rw [Station.tellProducer_lane_unbound _ hno]
      rfl

end Sys2Proof.Machine
end

section
namespace Sys2Proof.Machine

/-! ### Read requests on the link (R179, R180) -/

section Requests
variable {id offset : Nat} {data : List Byte} {good : Bool} {r : FetchRequest}

theorem FetchRequest.complete_ended (h : r.result ≠ none) : r.complete offset data good = r :=
  if_pos (Option.isSome_iff_ne_none.2 h)

theorem FetchRequest.expire_ended (h : r.result ≠ none) : r.expire = r :=
  if_pos (Option.isSome_iff_ne_none.2 h)

theorem FetchRequest.expire_open (h : r.result = none) : r.expire = { r with result := some .timeout } :=
  if_neg (by rw [h]; decide)

theorem FetchRequest.complete_bad (h : r.result = none) :
    r.complete offset data false = { r with result := some .error } :=
  if_neg (by rw [h]; decide)

/-- A byte of the request is the one of the completion where the completion has it, else the one it had. -/
theorem FetchRequest.place_getElem? {k : Nat} (hk : k < r.data.length) : (r.place offset data).data[k]? =
    if offset ≤ r.offset + k ∧ r.offset + k < offset + data.length then (data[r.offset + k - offset]?).map some
    else r.data[k]? := by
  rw [FetchRequest.place, List.getElem?_map, List.getElem?_zipIdx, List.getElem?_eq_getElem hk]
  by_cases hlow : offset ≤ r.offset + k
  · by_cases hhigh : r.offset + k < offset + data.length
    · have hin : r.offset + k - offset < data.length := by omega
      simp [hlow, hhigh, hin]
    · have hout : data.length ≤ r.offset + k - offset := by omega
      simp [hlow, hhigh, hout]
  · simp [hlow]

theorem FetchRequest.place_data {bytes : List (Option Byte)} (hlen : bytes.length = r.data.length)
    (hbytes : ∀ k, k < r.data.length → bytes[k]? =
      if offset ≤ r.offset + k ∧ r.offset + k < offset + data.length then (data[r.offset + k - offset]?).map some
      else r.data[k]?) : (r.place offset data).data = bytes := by
  have hplace : (r.place offset data).data.length = r.data.length := by simp [FetchRequest.place]
  refine List.ext_getElem? fun k => ?_
  by_cases hk : k < r.data.length
  · rw [FetchRequest.place_getElem? hk, hbytes k hk]
  · rw [List.getElem?_eq_none (by omega), List.getElem?_eq_none (by omega)]

/-- Good bytes take their places, and a request that has them all has ended good. -/
theorem FetchRequest.complete_good {bytes : List (Option Byte)} (h : r.result = none)
    (hdata : (r.place offset data).data = bytes) : r.complete offset data true =
      { r with data := bytes, result := if ∀ x ∈ bytes, x ≠ none then some .good else none } := by
  have hplace : r.place offset data = { r with data := bytes } := by rw [← hdata]; rfl
  have hall : bytes.all (·.isSome) = true ↔ ∀ x ∈ bytes, x ≠ none := by
    simp only [List.all_eq_true, Option.isSome_iff_ne_none]
  have hopen : r.complete offset data true = (r.place offset data).finish := if_neg (by rw [h]; decide)
  rw [hopen, hplace, FetchRequest.finish]
  by_cases hb : ∀ x ∈ bytes, x ≠ none
  · rw [if_pos hb, if_pos (hall.2 hb)]
  · rw [if_neg hb, if_neg (mt hall.1 hb), ← h]

/-- The one request of a name changed. -/
theorem Fetch.mapRequest_eq {b : Fetch} {xs ys : List FetchRequest} (f : FetchRequest → FetchRequest)
    (hb : b.requests = xs ++ r :: ys) (hr : r.id = id) (hne : ∀ z ∈ xs ++ ys, z.id ≠ id) :
    b.mapRequest id f = { b with requests := xs ++ f r :: ys } := by
  rw [Fetch.mapRequest, hb, map_ite_of_unique (p := fun z : FetchRequest => z.id = id) f hne hr]

theorem Fetch.mapRequest_none {b : Fetch} (f : FetchRequest → FetchRequest) (h : ∀ z ∈ b.requests, z.id ≠ id) :
    b.mapRequest id f = b := by
  have hsame : b.requests.map (fun z => if z.id = id then f z else z) = b.requests :=
    (List.map_congr_left fun z hz => if_neg (h z hz)).trans (List.map_id' _)
  rw [Fetch.mapRequest, hsame]

end Requests

section Completions
variable {s : Station} (ha : s.DeadlinesActed) (q : List Instr)
include ha

/-- Both commands change the request named in the burst in flight. -/
theorem exec_fetchReadCompletion_eq (id offset : Nat) (data : List Byte) (good : Bool) :
    exec (.fetchReadCompletion id offset data good) ⟨s, q⟩ = .next ⟨{ s with
      fetch := { s.fetch with
        burst := s.fetch.burst.map (Fetch.mapRequest id (FetchRequest.complete offset data good)) } }, q⟩ := by
  simp [exec, execFetchReadCompletion, Station.settled_of_acted ha]

theorem exec_fetchTimeout_eq (id : Nat) :
    exec (.fetchTimeout id) ⟨s, q⟩ = .next ⟨{ s with
      fetch := { s.fetch with burst := s.fetch.burst.map (Fetch.mapRequest id FetchRequest.expire) } }, q⟩ := by
  simp [exec, execFetchTimeout, Station.settled_of_acted ha]

end Completions

/-- No request of that name in flight, none changed. -/
theorem FetchEngine.map_mapRequest_none {x : FetchEngine} {id : Nat} (f : FetchRequest → FetchRequest)
    (h : ∀ b, x.burst = some b → ∀ z ∈ b.requests, z.id ≠ id) : x.burst.map (Fetch.mapRequest id f) = x.burst := by
  cases hb : x.burst with
  | none => rfl
  | some b => rw [Option.map_some, Fetch.mapRequest_none f (h b hb)]

/-- Settles O58. -/
theorem readRequestsEndByCompletionOrTimeout : Obligations.ReadRequestsEndByCompletionOrTimeout := by
  intro s ha q id offset data good b xs ys r after
  rw [exec_fetchReadCompletion_eq ha, exec_fetchTimeout_eq ha]
  refine ⟨fun hburst hb hid hne => ?_, fun hno => ?_⟩
  · have hmap : ∀ f : FetchRequest → FetchRequest, s.fetch.burst.map (Fetch.mapRequest id f) =
        some { b with requests := xs ++ f r :: ys } := fun f => by
      rw [hburst, Option.map_some, Fetch.mapRequest_eq f hb hid hne]
    have hsame : some { b with requests := xs ++ r :: ys } = s.fetch.burst := by rw [hburst, ← hb]
    rw [hmap, hmap]
    refine ⟨fun bytes hgood hopen hlen hbytes => ?_, fun hbad hopen => ?_, fun hopen => ?_, fun hended => ?_⟩
    · rw [hgood, FetchRequest.complete_good hopen (FetchRequest.place_data hlen hbytes)]
    · rw [hbad, FetchRequest.complete_bad hopen]
    · rw [FetchRequest.expire_open hopen]
    · rw [FetchRequest.complete_ended hended, FetchRequest.expire_ended hended, hsame]
      exact ⟨rfl, rfl⟩
  · rw [FetchEngine.map_mapRequest_none _ hno, FetchEngine.map_mapRequest_none _ hno]
    exact ⟨rfl, rfl⟩

end Sys2Proof.Machine
end

section
namespace Sys2Proof.Machine

/-! ### Refusals by station state (R171, R173, Tables 10.2 and 10.3) -/

theorem CmdEntry.known_iff {e : CmdEntry} :
    e.known = true ↔ commandCount (e.header.toNat % 256) = some (e.header.toNat / 256 % 32) := by
  rw [CmdEntry.known, e.code_toNat, e.count_eq, beq_iff_eq]

section Refusals
variable {s : Station} {e : CmdEntry} {rest : List CmdEntry} (ha : s.DeadlinesActed) (q : List Instr)
include ha

/-- An entry of no command of Table 10.2 is refused whatever the station state. -/
theorem exec_unknownCommand_refused (hf : s.port.fifo = e :: rest) (hc : s.port.cmdReady = none)
    (hk : commandCount (e.header.toNat % 256) ≠ some (e.header.toNat / 256 % 32)) :
    exec .unknownCommand ⟨s, q⟩ = .next ⟨s.refusedAs e rest 0 .unknownCommand, q⟩ := by
  have hunknown : e.known = false := eq_false_of_ne_true (mt CmdEntry.known_iff.1 hk)
  have htaken : (s.port.cmdReady.isNone && !e.known) = true := by rw [hc, hunknown]; rfl
  simp only [exec, execUnknownCommand, runEvent_eq, Station.settled_of_acted ha, hf, htaken, if_true]
  rfl

end Refusals

/-- A lane command outside RUNNING is refused with the lane it names (R112). -/
theorem Station.HeadIs.takeLaneCommand_badState {s : Station} {code : Nat} {e : CmdEntry} {rest : List CmdEntry}
    {l : LaneNo} (h : s.HeadIs code e rest) (hr : s.control.state ≠ .running) (hl : e.names l)
    (decide : CmdEntry → Station → Except CmdErrorCode Station) :
    s.takeLaneCommand code decide = s.refusedAs e rest l .badState := by
  have hrun : ¬(s.popped rest).running = true := mt beq_iff_eq.1 hr
  rw [Station.takeLaneCommand, h.takeHead_eq, if_neg hrun, hl.lane_eq]
  rfl

/-- The lane commands of Table 10.2 with their codes. -/
def laneCommands : List (Instr × Nat) :=
  [(.openLane, 5), (.segment, 6), (.stored, 7), (.storeFailed, 8), (.close, 9), (.suspend, 10), (.resume, 11),
    (.abort, 12)]

/-- Each is the lane unit's decision on a head of its code. -/
theorem exec_laneCommand {s : Station} (ha : s.DeadlinesActed) (q : List Instr) {c : Instr} {code : Nat}
    (hc : (c, code) ∈ laneCommands) :
    ∃ decide, exec c ⟨s, q⟩ = .next ⟨s.takeLaneCommand code decide, q⟩ := by
  simp only [laneCommands, List.mem_cons, Prod.mk.injEq, List.not_mem_nil, or_false] at hc
  rcases hc with ⟨rfl, rfl⟩ | ⟨rfl, rfl⟩ | ⟨rfl, rfl⟩ | ⟨rfl, rfl⟩ | ⟨rfl, rfl⟩ | ⟨rfl, rfl⟩ | ⟨rfl, rfl⟩ | ⟨rfl, rfl⟩ <;>
    exact ⟨_, runEvent_acted _ ha q⟩

/-! ### The commands that the command unit and station control decide (R172, R185, R189) -/

section Heads
variable {s : Station} (ha : s.DeadlinesActed) (q : List Instr)
include ha

theorem exec_configure_eq : exec .configure ⟨s, q⟩ =
    .next ⟨s.takeHead 2 fun e t => some (t.decideConfigure e), q⟩ := runEvent_acted _ ha q

theorem exec_start_eq : exec .start ⟨s, q⟩ = .next ⟨s.takeHead 3 Station.decideStart, q⟩ := runEvent_acted _ ha q

theorem exec_stats_eq : exec .stats ⟨s, q⟩ = .next ⟨s.takeHead 4 fun _ t => t.decideStats, q⟩ := runEvent_acted _ ha q

theorem exec_release_eq : exec .release ⟨s, q⟩ = .next ⟨s.takeHead 13 Station.decideRelease, q⟩ := runEvent_acted _ ha q

end Heads

section Decided
variable {s : Station} {e : CmdEntry}

theorem Station.decideConfigure_badState (h : s.control.state ≠ .config) : s.decideConfigure e = s.refuse e 0 .badState :=
  if_pos h

theorem Station.decideStart_badState (h : s.control.state ≠ .config) :
    s.decideStart e = some (s.refuse e 0 .badState) := if_pos h

theorem Station.decideStart_waits (h : s.control.state = .config) (hr : s.control.ready ≠ none) :
    s.decideStart e = none :=
  (if_neg (not_not_intro h)).trans (if_pos (Option.isSome_iff_ne_none.2 hr))

theorem Station.decideStats_waits (hr : s.control.ready ≠ none) : s.decideStats = none :=
  if_pos (Option.isSome_iff_ne_none.2 hr)

theorem Station.decideStats_taken (hr : s.control.ready = none) : s.decideStats =
    some { s with control := { s.control with ready := some (.stats s.control.counters) } } :=
  if_neg (by rw [hr]; decide)

theorem CmdEntry.threshold_eq (e : CmdEntry) : e.threshold = (e.arg 0).toNat % 2048 := by
  simp [CmdEntry.threshold]

section Configure
variable (h : s.control.state = .config)
include h

theorem Station.decideConfigure_taken (ht : 1 ≤ e.threshold ∧ e.threshold ≤ 1024) :
    s.decideConfigure e = { s with port := { s.port with threshold := e.threshold } } :=
  (if_neg (not_not_intro h)).trans (if_pos ht)

theorem Station.decideConfigure_badLength (ht : e.threshold = 0 ∨ 1024 < e.threshold) :
    s.decideConfigure e = s.refuse e 0 .badLength := by
  have hout : ¬(1 ≤ e.threshold ∧ e.threshold ≤ 1024) := by omega
  exact (if_neg (not_not_intro h)).trans (if_neg hout)

end Configure

theorem Station.decideRelease_badState (h : s.control.state ≠ .running) :
    s.decideRelease e = some (s.refuse e 0 .badState) := by
  have hrun : s.running = false := beq_eq_false_iff_ne.2 h
  exact if_pos (by rw [hrun]; rfl)

section Release
variable (h : s.control.state = .running)
include h

theorem Station.decideRelease_running : s.decideRelease e =
    if e.releaseLocator = 0 then some (s.refuse e 0 .badLocator)
    else if e.releaseKey.pool = 15 then
      if s.exchange.ready.isSome then none
      else some { s with exchange := { s.exchange with
        ready := some (.released (.reply .notFound) e.releaseLocator e.releaseCookie) } }
    else if 64 ≤ s.exchange.hostReleases then some (s.refuse e 0 .queueFull)
    else some { s with exchange := { s.exchange with waitQueue := s.exchange.waitQueue ++
      [.hostRelease e.releaseKey e.releaseLocator e.releaseCookie
        (ownerOf s.control.straps.clusterSize e.releaseKey.fp)] } } := by
  have hrun : s.running = true := beq_iff_eq.2 h
  exact if_neg (by rw [hrun]; decide)

theorem Station.decideRelease_badLocator (hl : e.releaseLocator = 0) :
    s.decideRelease e = some (s.refuse e 0 .badLocator) := by
  rw [Station.decideRelease_running h, if_pos hl]

variable (hl : e.releaseLocator ≠ 0)
include hl

/-- A RELEASE of pool 15 is answered at once, where the exchange unit holds no report (R12). -/
theorem Station.decideRelease_isolated (hp : e.releaseKey.pool = 15) (hr : s.exchange.ready = none) :
    s.decideRelease e = some { s with exchange := { s.exchange with
      ready := some (.released (.reply .notFound) e.releaseLocator e.releaseCookie) } } := by
  rw [Station.decideRelease_running h, if_neg hl, if_pos hp, hr]
  rfl

theorem Station.decideRelease_waits (hp : e.releaseKey.pool = 15) (hr : s.exchange.ready ≠ none) :
    s.decideRelease e = none := by
  rw [Station.decideRelease_running h, if_neg hl, if_pos hp, if_pos (Option.isSome_iff_ne_none.2 hr)]

theorem Station.decideRelease_queueFull (hp : e.releaseKey.pool ≠ 15) (hq : 64 ≤ s.exchange.hostReleases) :
    s.decideRelease e = some (s.refuse e 0 .queueFull) := by
  rw [Station.decideRelease_running h, if_neg hl, if_neg hp, if_pos hq]

/-- Otherwise a host release request joins the tag wait queue (R69). -/
theorem Station.decideRelease_queued (hp : e.releaseKey.pool ≠ 15) (hq : s.exchange.hostReleases < 64) :
    s.decideRelease e = some { s with exchange := { s.exchange with waitQueue := s.exchange.waitQueue ++
      [.hostRelease e.releaseKey e.releaseLocator e.releaseCookie
        (ownerOf s.control.straps.clusterSize e.releaseKey.fp)] } } := by
  rw [Station.decideRelease_running h, if_neg hl, if_neg hp, if_neg (Nat.not_le.2 hq)]

end Release

theorem CmdEntry.releaseLocator_eq (e : CmdEntry) : e.releaseLocator = (e.arg 6).extractLsb' 0 16 ++ e.arg 5 :=
  join48_eq ..

theorem CmdEntry.releaseKey_eq (e : CmdEntry) :
    e.releaseKey = ⟨(e.arg 0).extractLsb' 0 4, e.arg 1 ++ e.arg 2 ++ e.arg 3 ++ e.arg 4⟩ := by
  rw [CmdEntry.releaseKey, BitVec.setWidth_eq_extractLsb' (by decide)]
  rfl

end Decided

/-- Settles O21. -/
theorem stationStateRefusesCommands : Obligations.StationStateRefusesCommands := by
  intro s ha q e rest
  refine ⟨exec_unknownCommand_refused ha q, fun c code hc h hst l hl => ?_, fun h hst => ?_, fun c code hc h hst => ?_⟩
  · obtain ⟨decide, hexec⟩ := exec_laneCommand ha q hc
    rw [hexec, h.takeLaneCommand_badState hst hl]
  · have hst' : (s.popped rest).control.state ≠ .running := hst
    rw [exec_release_eq ha, h.takeHead_eq, Station.decideRelease_badState hst']
    rfl
  · have hst' : (s.popped rest).control.state ≠ .config := hst
    simp only [List.mem_cons, Prod.mk.injEq, List.not_mem_nil, or_false] at hc
    rcases hc with ⟨rfl, rfl⟩ | ⟨rfl, rfl⟩
    · rw [exec_configure_eq ha, h.takeHead_eq, Station.decideConfigure_badState hst']
      rfl
    · rw [exec_start_eq ha, h.takeHead_eq, Station.decideStart_badState hst']
      rfl

/-- An advance moves its own counter by one and no other (R188). -/
theorem Station.bump_counters_getElem (c : Counter) (k : Fin 24) (s : Station) :
    (s.bump c).control.counters[k] =
      if k = c.index then s.control.counters[k] + 1 else s.control.counters[k] := by
  by_cases h : k = c.index
  · subst h; simp [Station.bump]
  · have hne : c.index.val ≠ k.val := fun hv => h (Fin.ext hv.symm)
    simp [Station.bump, h, hne]

/-- Settles O23. -/
theorem configureAndStatsDecided : Obligations.ConfigureAndStatsDecided := by
  intro s ha q e rest
  refine ⟨fun h hst => ?_, fun h hr => ?_, fun c k => s.bump_counters_getElem c k, by decide⟩
  · have hst' : (s.popped rest).control.state = .config := hst
    rw [exec_configure_eq ha, h.takeHead_eq, ← e.threshold_eq]
    refine ⟨fun ht => ?_, fun ht => ?_⟩
    · rw [Station.decideConfigure_taken hst' ht]
      rfl
    · rw [Station.decideConfigure_badLength hst' ht]
      rfl
  · have hr' : (s.popped rest).control.ready = none := hr
    rw [exec_stats_eq ha, h.takeHead_eq, Station.decideStats_taken hr']
    rfl

/-- Settles O25: the four checks in their order. -/
theorem hostReleaseDecided : Obligations.HostReleaseDecided := by
  intro s ha q e rest h hst key locator cookie
  have hst' : (s.popped rest).control.state = .running := hst
  have hkey : key = e.releaseKey := e.releaseKey_eq.symm
  have hloc : locator = e.releaseLocator := e.releaseLocator_eq.symm
  rw [exec_release_eq ha, h.takeHead_eq, hkey, hloc]
  refine ⟨fun hl => ?_, fun hl hp hr => ?_, fun hl hp hfull => ?_, fun hl hp hroom => ?_⟩
  · rw [Station.decideRelease_badLocator hst' hl]
    rfl
  · rw [Station.decideRelease_isolated hst' hl hp hr]
    rfl
  · rw [Station.decideRelease_queueFull hst' hl hp hfull]
    rfl
  · rw [Station.decideRelease_queued hst' hl hp hroom]
    rfl

/-! ### What a held report keeps waiting (R24, R40, R83, R125, R154, R170) -/

section Held
variable {s : Station}

/-- No command of the FIFO is taken while CMD_ERROR is held (R170). -/
theorem Station.takeHead_held (h : s.port.cmdReady ≠ none) (code : Nat)
    (decide : CmdEntry → Station → Option Station) : s.takeHead code decide = s :=
  (s.takeHead_cases code decide).resolve_right fun ⟨_, _, _, hfree, _⟩ => h hfree

/-- No operation begins while BUCKET_LOST is held (R24, R40). -/
theorem Station.indexFree_held (h : s.index.ready ≠ none) : s.indexFree = false :=
  eq_false_of_ne_true fun hfree => h (Station.indexFree_iff.1 hfree).2.2.2

theorem Station.takeItem_held (h : s.index.ready ≠ none) {α : Type} (select : WorkItem → Option α)
    (act : α → Station → Station) : s.takeItem select act = s :=
  (s.takeItem_cases select act).resolve_right fun ⟨_, _, _, _, _, ht, _⟩ =>
    h (Station.indexFree_iff.1 (Station.takesItem_iff.1 ht).1).2.2.2

/-- The roster takes up no duty while PEER is held (R154). -/
theorem Station.rosterFree_held (h : s.roster.ready ≠ none) : s.rosterFree = false := by
  simp [Station.rosterFree, h]

theorem Station.changeDuty_held (h : s.roster.ready ≠ none) : s.changeDuty = none := by
  simp [Station.changeDuty, Station.rosterFree_held h]

theorem Station.takeBeacon_held (h : s.roster.ready ≠ none) : s.takeBeacon = s := by
  unfold Station.takeBeacon
  split
  · split
    · exact if_neg (by simp [Station.rosterFree_held h])
    · rfl
  · rfl

variable (ha : s.DeadlinesActed) (q : List Instr)
include ha

theorem exec_command_held (h : s.port.cmdReady ≠ none) {c : Instr}
    (hc : c ∈ [Instr.poolSet, .configure, .start, .stats, .unknownCommand, .openLane, .segment, .stored, .storeFailed,
      .close, .suspend, .resume, .abort, .release]) : exec c ⟨s, q⟩ = .next ⟨s, q⟩ := by
  cases c with
  | poolSet | configure | start | stats | release =>
    refine (runEvent_acted _ ha q).trans ?_
    rw [Station.takeHead_held h]
  | openLane | segment | stored | storeFailed | close | suspend | resume | abort =>
    refine (runEvent_acted _ ha q).trans ?_
    rw [Station.takeLaneCommand, Station.takeHead_held h]
  | unknownCommand =>
    simp only [exec, execUnknownCommand, runEvent_eq, Station.settled_of_acted ha]
    split <;> simp [h]
  | _ => simp at hc

theorem exec_item_held (h : s.index.ready ≠ none) {c : Instr}
    (hc : c ∈ [Instr.ask, .commit, .drop, .releaseItem, .peerLost, .peerRestarted, .leaseExpiry]) :
    exec c ⟨s, q⟩ = .next ⟨s, q⟩ := by
  cases c with
  | ask | commit | drop | releaseItem | peerLost | peerRestarted =>
    refine (runEvent_acted _ ha q).trans ?_
    rw [Station.takeItem_held h]
  | leaseExpiry =>
    simp only [exec, execLeaseExpiry, runEvent_eq, Station.settled_of_acted ha, Station.indexFree_held h,
      Bool.false_eq_true, if_false]
    (repeat' split) <;> rfl
  | _ => simp at hc

theorem exec_laneReportReady_held (h : s.lane.ready ≠ none) : exec .laneReportReady ⟨s, q⟩ = .next ⟨s, q⟩ := by
  simp [exec, execLaneReportReady, Station.settled_of_acted ha, Option.isSome_iff_ne_none.2 h]

theorem exec_exchangeReportReady_held (h : s.exchange.ready ≠ none) :
    exec .exchangeReportReady ⟨s, q⟩ = .next ⟨s, q⟩ := by
  simp [exec, execExchangeReportReady, Station.settled_of_acted ha, Option.isSome_iff_ne_none.2 h]

theorem exec_rosterDuty_held (h : s.roster.ready ≠ none) {c : Instr}
    (hc : c ∈ [Instr.peerJoin, .peerSilent, .conflictReport, .beaconTaken]) : exec c ⟨s, q⟩ = .next ⟨s, q⟩ := by
  cases c with
  | peerJoin => simp [exec, execPeerJoin, Station.settled_of_acted ha, Station.changeDuty_held h]
  | peerSilent => simp [exec, execPeerSilent, Station.settled_of_acted ha, Station.changeDuty_held h]
  | conflictReport =>
    simp only [exec, execConflictReport, runEvent_eq, Station.settled_of_acted ha, Station.rosterFree_held h]
    split <;> rfl
  | beaconTaken => simp [exec, execBeaconTaken, Station.settled_of_acted ha, Station.takeBeacon_held h]
  | _ => simp at hc

end Held

/-- Settles O26. -/
theorem heldReportsKeepTheirUnitsWaiting : Obligations.HeldReportsKeepTheirUnitsWaiting := by
  intro s ha q
  refine ⟨fun h c hc => exec_command_held ha q h hc, fun e rest hr => ⟨fun h => ?_, fun h hst => ?_⟩,
    fun e rest hr h hst hl hp => ?_, fun h c hc => exec_item_held ha q h hc, exec_laneReportReady_held ha q,
    exec_exchangeReportReady_held ha q, fun h c hc => exec_rosterDuty_held ha q h hc⟩
  · have hr' : (s.popped rest).control.ready ≠ none := hr
    rw [exec_stats_eq ha, h.takeHead_eq, Station.decideStats_waits hr']
    rfl
  · have hr' : (s.popped rest).control.ready ≠ none := hr
    have hst' : (s.popped rest).control.state = .config := hst
    rw [exec_start_eq ha, h.takeHead_eq, Station.decideStart_waits hst' hr']
    rfl
  · have hr' : (s.popped rest).exchange.ready ≠ none := hr
    rw [← e.releaseLocator_eq] at hl
    have hp' : e.releaseKey.pool = 15 := by rw [e.releaseKey_eq]; exact hp
    have hst' : (s.popped rest).control.state = .running := hst
    rw [exec_release_eq ha, h.takeHead_eq, Station.decideRelease_waits hst' hl hp' hr']
    rfl

end Sys2Proof.Machine
end

section
namespace Sys2Proof.Machine

/-! ### START decided (R160, R161, R185, R186) -/

theorem Straps.valid_eq_false_iff {x : Straps} :
    x.valid = false ↔ x.clusterSize = 0 ∨ x.clusterSize.toNat ≤ x.number.toNat := by
  rw [← Bool.not_eq_true, Straps.valid_iff, not_and_or, not_ne_iff, BitVec.lt_def, Nat.not_lt]

section StartDecided
variable {s : Station} {e : CmdEntry}

theorem Station.decideStart_refused (h : s.control.state = .config) (hr : s.control.ready = none)
    (hv : s.control.straps.valid = false) : s.decideStart e = some { s with
      control := { s.control with
        ready := some (.startRefused s.control.straps.number s.control.straps.clusterSize) } } :=
  (if_neg (not_not_intro h)).trans ((if_neg (by simp [hr])).trans (if_neg (by simp [hv])))

theorem Station.decideStart_taken (h : s.control.state = .config) (hr : s.control.ready = none)
    (hv : s.control.straps.valid = true) : s.decideStart e = some s.startTaken :=
  (if_neg (not_not_intro h)).trans ((if_neg (by simp [hr])).trans (if_pos hv))

/-- With a scrub owed the station enters SCRUB, the write of bucket 0 in flight (R28, R185). -/
theorem Station.startTaken_scrubs (h : s.control.scrubOwed = true) : s.startTaken =
    { s with
      control := { s.control with lock := true, scrubOwed := false, state := .scrub }
      index := { s.index with scrub := some 0 }
      clock := { Clock.reset with running := true } } := if_pos h

/-- The first beacon reads nothing of station control but the straps. -/
theorem Station.afterBeaconDue_control {c : Control} (h : c.straps = s.control.straps) :
    Station.afterBeaconDue { s with control := c } = { s.afterBeaconDue with control := c } := by
  unfold Station.afterBeaconDue
  dsimp only
  split
  · simp only [Station.withBeacon, h]
  · rfl

/-- With no scrub owed it enters RUNNING at once (R185). -/
theorem Station.startTaken_enters (h : s.control.scrubOwed = false) : s.startTaken =
    ({ s with
      control := { s.control with lock := true }
      clock := { Clock.reset with running := true } } : Station).enterRunning false := if_neg (by simp [h])

/-- Where it holds no report STARTED is ready at once, and the beacon deadline is 16 ticks from 0 (R160, R161, R186). -/
theorem Station.startTaken_runs (h : s.control.scrubOwed = false) (hr : s.control.ready = none) : s.startTaken =
    Station.afterBeaconDue { s with
      control := { s.control with
        lock := true, state := .running,
        ready := some (.started false s.control.straps.number s.control.straps.clusterSize) }
      roster := { s.roster with beaconDeadline := some 16 }
      clock := { Clock.reset with running := true } } := by
  rw [Station.startTaken_enters h, Station.enterRunning_started false (by exact hr)]
  exact (Station.afterBeaconDue_control (by rfl)).symm

end StartDecided

/-- Settles O24. -/
theorem startDecidedByStraps : Obligations.StartDecidedByStraps := by
  intro s ha q e rest h hst hr x
  rw [exec_start_eq ha, h.takeHead_eq]
  refine ⟨fun hbad => ?_, fun hz hn howed => ?_, fun hz hn howed => ?_⟩
  · rw [Station.decideStart_refused (s := s.popped rest) hst hr (Straps.valid_eq_false_iff.2 hbad)]
    rfl
  · rw [Station.decideStart_taken (s := s.popped rest) hst hr (Straps.valid_iff.2 ⟨hz, hn⟩),
      Station.startTaken_scrubs (s := s.popped rest) howed]
    rfl
  · rw [Station.decideStart_taken (s := s.popped rest) hst hr (Straps.valid_iff.2 ⟨hz, hn⟩),
      Station.startTaken_runs (s := s.popped rest) howed hr]
    rfl

end Sys2Proof.Machine
end

section
namespace Sys2Proof.Machine

/-! ### The scrub-owed marker (R184) -/

/-- A START decided leaves the settings, or sets the lock in CONFIG and takes the station to SCRUB or RUNNING by the
marker, which is then clear (R184, R185). -/
theorem Station.decideStart_settings {e : CmdEntry} {s t : Station} (h : s.decideStart e = some t) :
    t.control.settings = s.control.settings ∨ (s.control.state = .config ∧ t.control.settings =
      { s.control.settings with
        lock := true, scrubOwed := false, state := if s.control.scrubOwed then .scrub else .running }) := by
  unfold Station.decideStart at h
  split at h
  · cases h; exact .inl rfl
  · rename_i hst
    split at h
    · cases h
    split at h
    · cases h; exact .inr ⟨by simpa using hst, s.startTaken_settings⟩
    · cases h; exact .inl rfl

/-- The end of a scrub write, the scrub's completion included, leaves the marker. -/
theorem Station.scrubDone_scrubOwed (b : Nat) (s : Station) :
    (s.scrubDone b).control.scrubOwed = s.control.scrubOwed := by
  by_cases hlast : b + 1 < 524288
  · rw [Station.scrubDone_next hlast]
  · rw [Station.scrubDone_last (Nat.not_lt.1 hlast)]
    exact (congrArg Control.scrubOwed (Station.enterRunning_settings true _) :)

/-- No command but COLD_RESET and START changes the marker. -/
theorem exec_scrubOwed {c : Instr} (hd : Instr.isDeadlineRow c = false) (hcold : c ≠ .coldReset) (hstart : c ≠ .start)
    {s t : State} (ha : s.station.DeadlinesActed) (h : exec c s = .next t) :
    t.station.control.scrubOwed = s.station.control.scrubOwed := by
  cases hs : Instr.touchesStartup c with
  | false => exact (congrArg (Control.scrubOwed ∘ Prod.fst) (exec_startup hd hs ha h) :)
  | true =>
    rw [← Station.settled_of_acted ha]
    cases c with
    | coldReset => exact absurd rfl hcold
    | start => exact absurd rfl hstart
    | warmReset =>
      cases h
      dsimp only
      split
      · rfl
      · simp [Control.assertWarm]
    | coldRelease | leaseTick => cases h; dsimp only; split <;> rfl
    | warmRelease => cases h; rfl
    | poolSet =>
      cases h
      refine Station.takeHead_keeps (fun x => x.control.scrubOwed) (fun _ _ => rfl) fun e x y hy => ?_
      cases hy
      unfold Station.decidePoolSet
      (repeat' split) <;> rfl
    | scrubWriteDone =>
      rcases exec_scrubWriteDone_cases ha h with e | ⟨b, -, -, e⟩
      · rw [e, Station.settled_of_acted ha]
      · rw [e, Station.settled_of_acted ha, Station.scrubDone_scrubOwed]
    | _ => cases hs

/-- What a step that takes `s` to `t` does to the marker: a cold reset sets it, a START that is taken reads and clears it,
and every other step, a START refused or waiting included, leaves it. -/
inductive Station.OwedByRule (s t : Station) : Option Instr → Prop
  | cold (h : t.control.scrubOwed = true) : s.OwedByRule t (some .coldReset)
  | started (hst : s.control.state = .config) (ht : t.control.state = if s.control.scrubOwed then .scrub else .running)
      (h : t.control.scrubOwed = false) : s.OwedByRule t (some .start)
  | kept {front : Option Instr} (hcold : front ≠ some .coldReset)
      (hst : front = some .start → t.control.state = s.control.state) (h : t.control.scrubOwed = s.control.scrubOwed) :
      s.OwedByRule t front

/-- The rule reads of the station before only its settings. -/
theorem Station.OwedByRule.congr {front : Option Instr} {s u t : Station} (h : u.OwedByRule t front)
    (e : u.control.settings = s.control.settings) : s.OwedByRule t front := by
  obtain ⟨-, -, -, hstate, -, -, howed⟩ := Control.settings_eq e
  cases h with
  | cold h => exact .cold h
  | started hst ht h => exact .started (hstate ▸ hst) (howed ▸ ht) h
  | kept hcold hst h => exact .kept hcold (hstate ▸ hst) (howed ▸ h)

theorem Station.OwedByRule.of_settings {front : Option Instr} {s t : Station} (hcold : front ≠ some .coldReset)
    (e : t.control.settings = s.control.settings) : s.OwedByRule t front := by
  obtain ⟨-, -, -, hstate, -, -, howed⟩ := Control.settings_eq e
  exact .kept hcold (fun _ => hstate) howed

theorem Station.decideStart_owedByRule {e : CmdEntry} {s t : Station} (h : s.decideStart e = some t) :
    s.OwedByRule t (some .start) := by
  rcases Station.decideStart_settings h with hset | ⟨hst, hset⟩
  · exact .of_settings nofun hset
  · exact .started hst (congrArg Control.state hset :) (congrArg Control.scrubOwed hset :)

theorem exec_owedByRule {c : Instr} (hd : Instr.isDeadlineRow c = false) {s t : State} (ha : s.station.DeadlinesActed)
    (h : exec c s = .next t) : s.station.OwedByRule t.station (some c) := by
  by_cases hcold : c = .coldReset
  · subst hcold
    exact .cold (by rw [exec_coldReset_eq ha h]; rfl)
  by_cases hstart : c = .start
  · subst hstart
    rcases exec_start_cases ha h with e | ⟨e, rest, he⟩
    · exact .of_settings nofun (by rw [e])
    · exact (Station.decideStart_owedByRule he).congr rfl
  · exact .kept (by simpa using hcold) (fun h => absurd (Option.some.inj h) hstart) (exec_scrubOwed hd hcold hstart ha h)

theorem step_owedByRule {s t : State} (h : step s = .next t) : s.station.OwedByRule t.station s.front := by
  obtain ⟨x, pending⟩ := s
  cases pending with
  | nil =>
    cases h
    exact .of_settings nofun ((congrArg Control.settings x.settled.refclkPeriod_blocks.1).trans x.settled_settings)
  | cons c rest =>
    cases hd : Instr.isDeadlineRow c with
    | false => exact (exec_owedByRule hd x.settled_acted ((exec_settled hd _).symm.trans h)).congr x.settled_settings
    | true =>
      have hcold : (⟨x, c :: rest⟩ : State).front ≠ some .coldReset := fun hf => by
        cases hf
        cases hd
      refine .of_settings hcold ?_
      rcases exec_deadlineRow hd h with e | ⟨d, -, ds, e⟩ <;> rw [e]
      exact Station.actDeadline_settings d _

/-- A warm reset leads to CONFIG unless COLD is asserted (R183). -/
theorem step_warmReset_state {s t : State} (h : step s = .next t) (hf : s.front = some .warmReset)
    (hp : s.station.control.coldPin = false) : t.station.control.state = .config := by
  obtain ⟨x, pending⟩ := s
  obtain ⟨rest, rfl⟩ := List.head?_eq_some_iff.1 hf
  cases (exec_warmReset_station hp rest).symm.trans h
  rfl

/-! The clauses of the rule, read off it. -/

namespace Station.OwedByRule
variable {s t : Station} {front : Option Instr} (h : s.OwedByRule t front)
include h

theorem owed_of_coldReset (hf : front = some .coldReset) : t.control.scrubOwed = true := by
  cases h with
  | cold h => exact h
  | started => cases hf
  | kept hcold => exact absurd hf hcold

theorem same_of_warmReset (hf : front = some .warmReset) : t.control.scrubOwed = s.control.scrubOwed := by
  cases h with
  | cold | started => cases hf
  | kept _ _ h => exact h

/-- A START that leads out of CONFIG is one that is taken. -/
theorem of_left_config (hf : front = some .start) (hs : s.control.state = .config) (ht : t.control.state ≠ .config) :
    t.control.state = (if s.control.scrubOwed then .scrub else .running) ∧ t.control.scrubOwed = false := by
  cases h with
  | cold => cases hf
  | started _ hstate howed => exact ⟨hstate, howed⟩
  | kept _ hkept _ => exact absurd ((hkept hf).trans hs) ht

theorem of_changed (hne : t.control.scrubOwed ≠ s.control.scrubOwed) :
    front = some .coldReset ∨ (front = some .start ∧ s.control.state = .config ∧ t.control.state = .scrub) := by
  cases h with
  | cold => exact .inl rfl
  | started hst hstate howed =>
    have hs : s.control.scrubOwed = true := by simpa [howed] using hne
    exact .inr ⟨rfl, hst, by rw [hstate, if_pos hs]⟩
  | kept _ _ h => exact absurd h hne

end Station.OwedByRule

/-- Settles O15. -/
theorem scrubOwedMarkerByReset : Obligations.ScrubOwedMarkerByReset := by
  intro s t h
  have hr := step_owedByRule h
  refine ⟨hr.owed_of_coldReset, hr.same_of_warmReset, fun hf ht hs => ?_, fun hf ht hs => ?_, hr.of_changed,
    fun hsound hs hp hf => ⟨step_warmReset_state h hf hp, ?_⟩⟩
  · obtain ⟨hstate, howed⟩ := hr.of_left_config hf hs (by rw [ht]; decide)
    exact ⟨by simpa [ht] using hstate, howed⟩
  · obtain ⟨hstate, howed⟩ := hr.of_left_config hf hs (by rw [ht]; decide)
    exact ⟨by simpa [ht] using hstate, howed⟩
  · obtain ⟨-, -, howed, -⟩ := hsound.started (by rw [hs]; decide)
    exact (hr.same_of_warmReset hf).trans howed

end Sys2Proof.Machine
end


section
namespace Sys2Proof.Machine

/-- Settles O1. -/
theorem stepTakesFrontCommand : Obligations.StepTakesFrontCommand := by
  intro c s q
  have htakes : step ⟨s, c :: q⟩ = exec c ⟨s, q⟩ := step_cons c q s
  have hnext : ∃ t : Station, exec c ⟨s, q⟩ = .next ⟨t, q⟩ := exec_next c ⟨s, q⟩
  exact ⟨htakes, hnext⟩

end Sys2Proof.Machine
end

section
namespace Sys2Proof.Machine

/-! ### Each change of an entry keeps to Tables 4.1 and 4.2 (R63, R65, R66) -/

/-- An entry that serves its slot and sends nothing. -/
theorem Entry.sound_of_quiet {e : Entry} (hs : e.state = .holding ∨ e.state = .storing ∨ e.state = .resolved)
    (hk : e.kind = .askExchange) (hc : e.closing = false) (hr : e.request = none)
    (hd : ∀ d t, e.deadline = some (d, t) → e.deadlineFits d) : e.Sound where
  free hf := by simp [hf] at hs
  kind _ := by rcases hs with h | h | h <;> simp [hk, h]
  bound _ := ⟨hc, by tauto⟩
  request := by simp [hr]
  deadline := hd
  attempts ha := by rcases hs with h | h | h <;> simp [h] at ha
  closing h := by simp [hc] at h

namespace Entry.Sound
variable {e : Entry}

theorem freed : e.freed.Sound where
  free _ := rfl
  kind h := absurd rfl h
  bound := nofun
  request := nofun
  deadline := nofun
  attempts := nofun
  closing := nofun

/-- A live entry that is not RELEASING is of the ASK-exchange kind (Table 4.2). -/
theorem asks (h : e.Sound) (hf : e.state ≠ .free) (hr : e.state ≠ .releasing) : e.kind = .askExchange :=
  (h.kind hf).2 hr

theorem live_of_owed (h : e.Sound) (ho : e.owed.isSome = true) : e.state ≠ .free := fun hf => by
  rw [h.free hf] at ho
  cases ho

theorem live_of_kind (h : e.Sound) (hk : e.kind ≠ .askExchange) : e.state ≠ .free := fun hf =>
  hk (by rw [h.free hf])

theorem live_of_request (h : e.Sound) {r : RequestKind × Phase} (hr : e.request = some r) : e.state ≠ .free := fun hf => by
  rw [h.free hf] at hr
  cases hr

/-- An entry with a deadline is not closing. -/
theorem not_closing_of_deadline (h : e.Sound) (hd : e.deadline ≠ none) : e.closing = false :=
  Bool.eq_false_iff.2 fun hc => hd (h.closing hc).1

/-- A request that a closing entry has is its DROP, not yet handed on. -/
theorem not_closing_of_request (h : e.Sound) {k : RequestKind} {ph : Phase} (hr : e.request = some (k, ph))
    (hph : ph ≠ .pending) : e.closing = false :=
  Bool.eq_false_iff.2 fun hc => by
    rcases (h.closing hc).2 with h | ⟨h, -⟩ <;> rw [hr] at h <;> cases h
    exact hph rfl

theorem closeOwing (h : e.Sound) (r : OwedReport) (hf : e.state ≠ .free) : (e.closeOwing r).Sound :=
  { h with
    free := fun hs => absurd hs hf
    bound := nofun
    request := nofun
    deadline := nofun
    closing := fun _ => ⟨rfl, .inr ⟨rfl, rfl⟩⟩ }

theorem release (h : e.Sound) : e.release.Sound := by
  unfold Entry.release
  split
  next ho =>
    exact { h with
      free := fun hs => absurd hs (h.live_of_owed ho)
      bound := nofun
      request := nofun
      deadline := nofun
      closing := fun _ => ⟨rfl, .inr ⟨rfl, ho⟩⟩ }
  next => exact freed

theorem closeDropping (h : e.Sound) (hf : e.state ≠ .free) : e.closeDropping.Sound :=
  { h with
    free := fun hs => absurd hs hf
    bound := nofun
    request := fun _ _ hr => by cases hr; rfl
    deadline := nofun
    closing := fun _ => ⟨rfl, .inl rfl⟩ }

theorem toOrphan (h : e.Sound) (o : Origin) (now : Tick) (hf : e.state ≠ .free) (hr : e.state ≠ .releasing)
    (hc : e.closing = false) : (e.toOrphan o now).Sound where
  free := nofun
  kind _ := iff_of_true (h.asks hf hr) nofun
  bound := nofun
  request := nofun
  deadline _ _ hd := by cases hd; exact ⟨o, rfl⟩
  attempts := nofun
  closing hc' := absurd (hc.symm.trans hc') nofun

/-- A compensation RELEASE, whatever report it owes besides (R85, R87). -/
theorem toCompensation (l : Locator) (r : Option OwedReport) (hc : e.closing = false) :
    ({ e.toCompensation l with owed := r } : Entry).Sound where
  free := nofun
  kind _ := iff_of_false nofun (not_not_intro rfl)
  bound := nofun
  request _ _ hr := by cases hr; rfl
  deadline := nofun
  attempts _ := ⟨le_rfl, Nat.le_add_left 1 2⟩
  closing hc' := absurd (hc.symm.trans hc') nofun

/-- An entry that ends its exchange and goes on serving its slot (R75, R77, R79). -/
theorem settle (h : e.Sound) (hf : e.state ≠ .free) (hr : e.state ≠ .releasing) (hc : e.closing = false) {x : EntryState}
    (hx : x = .holding ∨ x = .storing ∨ x = .resolved) (l : Option Locator) (r : Option OwedReport) :
    ({ e.settle x with locator := l, owed := r } : Entry).Sound :=
  Entry.sound_of_quiet hx (h.asks hf hr) hc rfl nofun

/-- An entry that comes to hold has a hold deadline (R75). -/
theorem settle_hold (h : e.Sound) (hs : e.state = .asking) (hc : e.closing = false) (d : Tick) :
    ({ e.settle .holding with deadline := some (.hold, d) } : Entry).Sound :=
  Entry.sound_of_quiet (.inl rfl) (h.asks (by simp [hs]) (by simp [hs])) hc rfl fun _ _ hd => by cases hd; rfl

theorem noDeadline (h : e.Sound) : ({ e with deadline := none } : Entry).Sound :=
  { h with
    free := fun hs => by rw [h.free hs]
    deadline := nofun
    closing := fun hc => ⟨rfl, (h.closing hc).2⟩ }

/-- One attempt more (R72, R73). -/
theorem attemptAgain (h : e.Sound) (hf : e.state ≠ .free) (hc : e.closing = false) (ha : e.attempts < 3) :
    ({ e with
      attempts := e.attempts + 1, request := e.request.map fun r => (r.1, .pending), deadline := none } : Entry).Sound :=
  { h with
    free := fun hs => absurd hs hf
    request := fun k ph hr => by
      obtain ⟨⟨_, _⟩, hq, hk⟩ := Option.map_eq_some_iff.1 hr
      cases hk
      exact h.request _ _ hq
    deadline := nofun
    attempts := fun _ => ⟨Nat.le_add_left 1 e.attempts, ha⟩
    closing := fun hc' => absurd (hc.symm.trans hc') nofun }

theorem acknowledged (h : e.Sound) {k : RequestKind} (hr : e.request = some (k, .sent)) (now : Tick) :
    (e.acknowledged k now).Sound :=
  { h with
    free := fun hs => absurd hs (h.live_of_request hr)
    request := fun _ _ hq => by cases hq; exact h.request k .sent hr
    deadline := fun d t hd => by
      unfold Entry.acknowledged at hd
      dsimp only at hd
      split at hd
      next ha =>
        cases hd
        unfold Entry.awaits at ha
        split at ha
        case h_4 => cases ha
        all_goals
          rename_i hs
          simp [Entry.deadlineFits, Entry.acknowledged, hs]
      next => exact h.deadline d t hd
    closing := fun hc => absurd ((h.not_closing_of_request hr nofun).symm.trans hc) nofun }

/-- A request handed on; a closing entry has no report to make when its DROP is (R71). -/
theorem handedOn (h : e.Sound) {k : RequestKind} (hr : e.request = some (k, .pending)) (ho : e.owed = none)
    (ph : Phase) : (e.handedOn k ph).Sound := by
  unfold Entry.handedOn
  split
  next => exact freed
  next hn =>
    have hc : e.closing = false := Bool.eq_false_iff.2 fun hc => hn <| by
      rcases (h.closing hc).2 with hd | ⟨hd, -⟩ <;> rw [hr] at hd <;> cases hd
      simp [hc, ho]
    exact { h with
      free := fun hs => absurd hs (h.live_of_request hr)
      request := fun _ _ hq => by cases hq; exact h.request k .pending hr
      closing := fun hc' => absurd (hc.symm.trans hc') nofun }

theorem reportMade (h : e.Sound) : e.reportMade.Sound := by
  unfold Entry.reportMade
  split
  next => exact freed
  next hn =>
    exact { h with
      free := fun hs => by rw [h.free hs]
      closing := fun hc => by
        obtain ⟨hd, hq | ⟨hq, -⟩⟩ := h.closing hc
        · exact ⟨hd, .inl hq⟩
        · exact absurd (by simp [hq, show e.closing = true from hc]) hn }

/-- What the abort of its lane makes of a bound entry (Table 4.7). -/
theorem abortBound (h : e.Sound) (hb : e.binding.isSome = true) (now : Tick) : (e.abortBound now).Sound := by
  obtain ⟨hc, -⟩ := h.bound hb
  unfold Entry.abortBound
  cases hs : e.state with
  | asking =>
    dsimp only
    split
    · exact freed
    · exact h.toOrphan _ _ (by simp [hs]) (by simp [hs]) hc
  | holding => exact h.toOrphan _ _ (by simp [hs]) (by simp [hs]) hc
  | storing => exact h.closeDropping (by simp [hs])
  | committing =>
    dsimp only
    split
    · exact h.closeOwing _ (by simp [hs])
    · exact h.toOrphan _ _ (by simp [hs]) (by simp [hs]) hc
  | resolved => exact toCompensation _ _ hc
  | free | releasing | orphan => exact h

/-- The entry of a slot just stored sends COMMIT (R78). -/
theorem commitBound (h : e.Sound) (hb : e.binding.isSome = true) (l : Locator) :
    ({ e with
      state := .committing, locator := some l, request := some (.commit, .pending), attempts := 1, ackedOnce := false
      deadline := none } : Entry).Sound := by
  obtain ⟨hc, hs⟩ := h.bound hb
  have hk : e.kind = .askExchange := h.asks (by rcases hs with h | h | h | h | h <;> simp [h])
    (by rcases hs with h | h | h | h | h <;> simp [h])
  exact {
    free := nofun
    kind := fun _ => iff_of_true hk nofun
    bound := fun _ => ⟨hc, by simp⟩
    request := fun _ _ hr => by cases hr; rfl
    deadline := nofun
    attempts := fun _ => ⟨le_rfl, Nat.le_add_left 1 2⟩
    closing := fun hc' => absurd (hc.symm.trans hc') nofun }

end Entry.Sound

theorem Entry.grantLookup_sound (l : LaneNo) (q : Word) (k : Key) (o : StationNo) (e : Entry) :
    (e.grantLookup l q k o).Sound where
  free := nofun
  kind _ := iff_of_true rfl nofun
  bound _ := ⟨rfl, .inl rfl⟩
  request _ _ hr := by cases hr; rfl
  deadline := nofun
  attempts _ := ⟨le_rfl, Nat.le_add_left 1 2⟩
  closing := nofun

theorem Entry.grantRelease_sound (k : Key) (l : Locator) (c : Cookie) (o : StationNo) (v : Bool) (e : Entry) :
    (e.grantRelease k l c o v).Sound where
  free := nofun
  kind _ := iff_of_false nofun (not_not_intro rfl)
  bound := nofun
  request _ _ hr := by
    cases v <;> cases hr
    rfl
  deadline := nofun
  attempts _ := ⟨le_rfl, Nat.le_add_left 1 2⟩
  closing hc := by
    cases v
    · exact ⟨rfl, .inr ⟨rfl, rfl⟩⟩
    · cases hc

end Sys2Proof.Machine
end

section
namespace Sys2Proof.Machine

/-! ### Work on entries and the slots they serve, said once

Answers, outcomes, deadlines, cleanups and hand-ons change one entry at a time, and with it at most the slot that it is
bound to. -/

theorem slotMove_id : SlotMove id := ⟨fun _ => rfl, fun _ => id⟩

/-- A change of an entry `e` into `e'` that moves its slot by `f`: it keeps to Tables 4.1 and 4.2, and leaves the entry
without its slot, or bound to it in matching states. -/
structure Entry.Change (e : Entry) (f : Slot → Slot) (e' : Entry) : Prop where
  sound : e.Sound → e'.Sound
  move : SlotMove f
  slot : e'.binding = none ∨ e'.binding = e.binding ∧ (e.state = .resolved → e'.state = .resolved) ∧
    ∀ y : Slot, y.matches e.state → (f y).matches e'.state

/-- A live entry that is not closing. -/
def Entry.Active (e : Entry) : Prop := e.state ≠ .free ∧ e.closing = false

namespace Entry.Change
variable {e e' : Entry} {f : Slot → Slot}

/-- The entry gives its slot up. -/
theorem unbound (hf : SlotMove f) (hb : e'.binding = none) (hs : e.Sound → e'.Sound) : e.Change f e' :=
  ⟨hs, hf, .inl hb⟩

/-- Entry and slot keep their states. -/
theorem still (hb : e'.binding = e.binding) (hx : e'.state = e.state) (hs : e.Sound → e'.Sound) : e.Change id e' :=
  ⟨hs, slotMove_id, .inr ⟨hb, fun h => hx.trans h, fun y hy => by rw [hx]; exact hy⟩⟩

/-- Entry and slot change state together. -/
theorem together (hf : SlotMove f) (hb : e'.binding = e.binding) (hx : e.state ≠ .resolved)
    (hm : ∀ y : Slot, (f y).matches e'.state) (hs : e.Sound → e'.Sound) : e.Change f e' :=
  ⟨hs, hf, .inr ⟨hb, fun h => absurd h hx, fun y _ => hm y⟩⟩

theorem refl : e.Change id e := still rfl rfl id

theorem release (hf : SlotMove f) : e.Change f e.release := by
  refine unbound hf ?_ Entry.Sound.release
  unfold Entry.release
  split <;> rfl

theorem closeOwing (r : OwedReport) (h : e.Sound → e.state ≠ .free) : e.Change id (e.closeOwing r) :=
  unbound slotMove_id rfl fun hs => hs.closeOwing r (h hs)

theorem closeDropping (h : e.Sound → e.state ≠ .free) : e.Change id e.closeDropping :=
  unbound slotMove_id rfl fun hs => hs.closeDropping (h hs)

theorem toOrphan (hf : SlotMove f) (o : Origin) (now : Tick) (h : e.Sound → e.Active) (hr : e.state ≠ .releasing) :
    e.Change f (e.toOrphan o now) :=
  unbound hf rfl fun hs => hs.toOrphan o now (h hs).1 hr (h hs).2

theorem toCompensation (l : Locator) (r : Option OwedReport) (h : e.Sound → e.Active) :
    e.Change id { e.toCompensation l with owed := r } :=
  unbound slotMove_id rfl fun hs => Entry.Sound.toCompensation l r (h hs).2

theorem noDeadline : e.Change id { e with deadline := none } := still rfl rfl Entry.Sound.noDeadline

theorem reportMade : e.Change id e.reportMade := by
  refine ⟨Entry.Sound.reportMade, slotMove_id, ?_⟩
  unfold Entry.reportMade
  split
  · exact .inl rfl
  · exact .inr ⟨rfl, id, fun _ => id⟩

theorem handedOn {k : RequestKind} (hr : e.request = some (k, .pending)) (ho : e.owed = none) (ph : Phase) :
    e.Change id (e.handedOn k ph) := by
  refine ⟨fun hs => hs.handedOn hr ho ph, slotMove_id, ?_⟩
  unfold Entry.handedOn
  split
  · exact .inl rfl
  · exact .inr ⟨rfl, id, fun _ => id⟩

/-- The entry bound to a slot of an aborted lane gives it up (Table 4.7). -/
theorem abortBound (hb : e.binding.isSome = true) (now : Tick) : e.Change id (e.abortBound now) := by
  rw [Entry.abortBound_eq]
  rcases e.afterAbort_binding now with h | h
  · refine unbound slotMove_id h fun hs => ?_
    rw [← Entry.abortBound_eq]
    exact hs.abortBound hb now
  · rw [h]
    exact refl

end Entry.Change

/-- The station `t` is `s` with entry `i` changed, and with it the slot that the entry is bound to; the chunker and the
tag wait queue are as they were. -/
structure Station.EntryChanged (s : Station) (i : EntryIndex) (f : Slot → Slot) (e : Entry) (t : Station) : Prop where
  change : (s.entry i).Change f e
  entries : t.exchange.entries = s.exchange.entries.set i e
  lane : t.lane = (s.moveSlot (s.entry i).binding f).lane
  chunker : t.chunker = s.chunker
  waitQueue : t.exchange.waitQueue = s.exchange.waitQueue

/-- The station `t` comes from `s` by changes of entries and of the slots that they are bound to, one after the other. -/
def Station.EntryWork : Station → Station → Prop :=
  Relation.ReflTransGen fun s t => ∃ i f e, s.EntryChanged i f e t

/-- What every such change keeps, such work keeps. -/
theorem Station.EntryWork.keeps {P : Station → Prop} {s t : Station} (h : s.EntryWork t)
    (hp : ∀ (u : Station) i f e v, u.EntryChanged i f e v → P u → P v) (hs : P s) : P t := by
  induction h with
  | refl => exact hs
  | tail _ hc ih =>
    obtain ⟨i, f, e, hc⟩ := hc
    exact hp _ i f e _ hc ih

namespace Station.EntryWork
variable {s t u : Station} {i : EntryIndex} {f : Slot → Slot} {e : Entry}

theorem refl : s.EntryWork s := Relation.ReflTransGen.refl

theorem trans (h : s.EntryWork t) (h' : t.EntryWork u) : s.EntryWork u := Relation.ReflTransGen.trans h h'

theorem moveSlot_id (b : Option Binding) (s : Station) : s.moveSlot b id = s := by
  cases b with
  | none => rfl
  | some b =>
    have hlane (l : Lane) : l.mapSlot b.seq id = l := by simp [Lane.mapSlot]
    simp [Station.moveSlot, Station.mapLane, hlane]

/-- One entry set, its slot moved. -/
theorem of_setEntry (hc : (s.entry i).Change f e) (hl : u.lane = (s.moveSlot (s.entry i).binding f).lane := by rfl)
    (hk : u.chunker = s.chunker := by simp) (hx : u.exchange = s.exchange := by simp) : s.EntryWork (u.setEntry i e) :=
  .single ⟨i, f, e, hc, by rw [← hx]; rfl, hl, hk, by rw [← hx]; rfl⟩

/-- One entry set, no slot moved. -/
theorem of_entry (hc : (s.entry i).Change id e) (he : t.exchange.entries = s.exchange.entries.set i e := by rfl)
    (hw : t.exchange.waitQueue = s.exchange.waitQueue := by rfl) (hl : t.lane = s.lane := by rfl)
    (hk : t.chunker = s.chunker := by rfl) : s.EntryWork t :=
  .single ⟨i, id, e, hc, he, by rw [moveSlot_id]; exact hl, hk, hw⟩

theorem setEntry (hc : (s.entry i).Change id e) : s.EntryWork (s.setEntry i e) := of_entry hc

/-- Entries, tag wait queue, lanes and chunker as they were. -/
theorem of_same (he : t.exchange.entries = s.exchange.entries := by simp)
    (hw : t.exchange.waitQueue = s.exchange.waitQueue := by simp) (hl : t.lane = s.lane := by simp)
    (hk : t.chunker = s.chunker := by simp) : s.EntryWork t :=
  of_entry (i := 0) (e := s.entry 0) .refl (by rw [he]; exact (Vector.set_getElem_self _).symm) hw hl hk

theorem of_blocks (h : t.lane = s.lane ∧ t.chunker = s.chunker ∧ t.exchange = s.exchange) : s.EntryWork t := by
  obtain ⟨hl, hk, hx⟩ := h
  exact of_same (by rw [hx]) (by rw [hx]) hl hk

/-! #### Failed attempts -/

theorem exhaust (h : (s.entry i).Sound → (s.entry i).Active) : s.EntryWork (s.exhaust i) := by
  unfold Station.exhaust
  dsimp only
  split
  next hs => exact of_setEntry (.toOrphan (slotMove_toStoring _) _ _ h (by simp [hs]))
  next hs => exact of_setEntry (.toOrphan (slotMove_resolve _ _) _ _ h (by simp [hs]))
  next => exact refl

theorem attemptFailed (h : (s.entry i).Sound → (s.entry i).Active) : s.EntryWork (s.attemptFailed i) := by
  unfold Station.attemptFailed
  dsimp only
  split
  next ha => exact setEntry (.still rfl rfl fun hs => hs.attemptAgain (h hs).1 (h hs).2 ha)
  next => exact exhaust h

theorem giveUp (o : ReleasedOutcome) : s.EntryWork (s.giveUp o i) := by
  unfold Station.giveUp
  dsimp only
  split
  next hk => exact setEntry (.closeOwing _ fun hs => hs.live_of_kind (by simp [hk]))
  next => exact of_entry (.release slotMove_id)
  next => exact refl

theorem sendFailed {k : RequestKind} (h : (s.entry i).Sound → (s.entry i).Active) : s.EntryWork (s.sendFailed k i) := by
  cases k with
  | ask | commit => exact attemptFailed h
  | release => exact giveUp _
  | drop => exact refl

/-- An entry with a request on its way is live and not closing. -/
theorem active_of_sent {k : RequestKind} (hr : e.request = some (k, .sent)) (h : e.Sound) : e.Active :=
  ⟨h.live_of_request hr, h.not_closing_of_request hr nofun⟩

theorem takeOutcome (k : RequestKind) (g : Tag) (a : Bool) : s.EntryWork (s.takeOutcome k g a) := by
  unfold Station.takeOutcome
  dsimp only
  split
  next hc =>
    have hr : (s.entry (tagIndex g)).request = some (k, .sent) := by
      simp only [Bool.and_eq_true, beq_iff_eq] at hc
      exact hc.2
    split
    · exact setEntry (.still rfl rfl fun hs => hs.acknowledged hr _)
    · exact sendFailed (active_of_sent hr)
  next => exact refl

theorem tellOutcome (x : TxFrame) (a : Bool) : s.EntryWork (s.tellOutcome x a) := by
  unfold Station.tellOutcome
  (repeat' split)
  · exact refl
  · exact takeOutcome _ _ _
  · exact refl
  · exact of_same rfl rfl rfl rfl

theorem endAttempt (x : TxFrame) (a : Bool) : s.EntryWork (s.endAttempt x a) := by
  have hr (c : Counter) : s.EntryWork (s.removeOnLine.bump c) := of_same rfl rfl rfl rfl
  unfold Station.endAttempt
  (repeat' split)
  · exact (hr _).trans (tellOutcome x true)
  · exact of_same rfl rfl rfl rfl
  · exact of_same rfl rfl rfl rfl
  · exact (hr _).trans (tellOutcome x false)

/-! #### Answers -/

section Answers
variable {a : AnswerBody} (h : (s.entry i).Active)
include h

theorem takeKnown (l : Locator) (hs : (s.entry i).state = .asking ∨ (s.entry i).state = .holding) :
    s.EntryWork (s.takeKnown i l) :=
  of_setEntry (.together (slotMove_resolve _ _) rfl (by rcases hs with hs | hs <;> simp [hs]) (fun _ => .inl rfl)
    fun hsound => hsound.settle h.1 (by rcases hs with hs | hs <;> simp [hs]) h.2 (.inr (.inr rfl)) _ _)

theorem takeWrite (hs : (s.entry i).state = .asking ∨ (s.entry i).state = .holding) : s.EntryWork (s.takeWrite i) :=
  of_setEntry (.together (slotMove_toStoring _) rfl (by rcases hs with hs | hs <;> simp [hs]) (fun _ => ⟨true, rfl⟩)
    fun hsound => hsound.settle h.1 (by rcases hs with hs | hs <;> simp [hs]) h.2 (.inr (.inl rfl)) _ _)

theorem answerAsking (hs : (s.entry i).state = .asking) : s.answerAsking i a = some t → s.EntryWork t := by
  unfold Station.answerAsking
  rcases a.asVerdict with _ | (_ | _ | _ | _) <;> rintro ⟨⟩
  case known => exact takeKnown h _ (.inl hs)
  case write => exact takeWrite h (.inl hs)
  case hold =>
    exact of_setEntry (.together (slotMove_enter (state := .holding) nofun) rfl (by simp [hs]) (fun _ => rfl)
      fun hsound => hsound.settle_hold hs h.2 _)
  case noindex => exact of_setEntry (.release (slotMove_toStoring _))

theorem answerHolding (hs : (s.entry i).state = .holding) : s.answerHolding i a = some t → s.EntryWork t := by
  unfold Station.answerHolding
  rcases a.asVerdict with _ | (_ | _ | _ | _) <;> rintro ⟨⟩
  case known => exact takeKnown h _ (.inr hs)
  case write => exact takeWrite h (.inr hs)

theorem answerCommitting (hs : (s.entry i).state = .committing) : s.answerCommitting i a = some t → s.EntryWork t := by
  have settled (k : Kind) (m : Locator) (hk : k = .dup ∨ k = .new) (l : Option Locator) (r : Option OwedReport) :
      (s.entry i).Change (Slot.resolve k m) { (s.entry i).settle .resolved with locator := l, owed := r } :=
    .together (slotMove_resolve _ _) rfl (by simp [hs]) (fun _ => hk.imp (congrArg _) (congrArg _))
      fun hsound => hsound.settle h.1 (by simp [hs]) h.2 (.inr (.inr rfl)) l r
  unfold Station.answerCommitting
  rcases a with _ | _ | (_ | _ | _) | _ <;> rintro ⟨⟩
  case indexed => exact of_setEntry (settled _ _ (.inr rfl) _ _)
  case superseded => exact of_setEntry (settled _ _ (.inl rfl) _ _)
  case notIndexed => exact of_setEntry (.release (slotMove_resolve _ _))

theorem answerReleasing : s.answerReleasing i a = some t → s.EntryWork t := by
  unfold Station.answerReleasing
  rcases a with _ | _ | _ | o
  iterate 3 rintro ⟨⟩
  dsimp only
  cases (s.entry i).kind with
  | askExchange => rintro ⟨⟩
  | hostRelease => rintro ⟨⟩; exact setEntry (.closeOwing _ fun _ => h.1)
  | compensation =>
    cases o <;> rintro ⟨⟩
    case retired => exact setEntry (.closeOwing _ fun _ => h.1)
    all_goals exact setEntry (.release slotMove_id)

theorem answerAskOrphan {held : Bool} (hs : (s.entry i).state ≠ .releasing) :
    s.answerAskOrphan i held a = some t → s.EntryWork t := by
  unfold Station.answerAskOrphan
  rcases a.asVerdict with _ | (_ | _ | _ | _)
  case none => rintro ⟨⟩
  case known => rintro ⟨⟩; exact setEntry (.toCompensation _ _ fun _ => h)
  case write => rintro ⟨⟩; exact setEntry (.closeDropping fun _ => h.1)
  case hold => cases held <;> rintro ⟨⟩; exact setEntry (.toOrphan slotMove_id _ _ (fun _ => h) hs)
  case noindex => cases held <;> rintro ⟨⟩; exact setEntry (.release slotMove_id)

theorem answerCommitOrphan {aborted : Bool} : s.answerCommitOrphan i aborted a = some t → s.EntryWork t := by
  unfold Station.answerCommitOrphan
  rcases a with _ | _ | (_ | _ | _) | _ <;> rintro ⟨⟩ <;> cases aborted
  case indexed.false | notIndexed.false => exact setEntry (.release slotMove_id)
  case indexed.true | superseded.false | superseded.true => exact setEntry (.toCompensation _ _ fun _ => h)
  case notIndexed.true => exact setEntry (.closeOwing _ fun _ => h.1)

theorem answerEntry : s.answerEntry i a = some t → s.EntryWork t := by
  unfold Station.answerEntry
  split
  next hs => exact answerAsking h hs
  next hs => exact answerHolding h hs
  next hs => exact answerCommitting h hs
  next => exact answerReleasing h
  next hs => exact answerAskOrphan h (by simp [hs])
  next hs => exact answerAskOrphan h (by simp [hs])
  next => exact answerCommitOrphan h
  next => exact answerCommitOrphan h
  all_goals rintro ⟨⟩

end Answers

theorem takeAnswer (g : Tag) (a : AnswerBody) : s.EntryWork (s.takeAnswer g a) := by
  have hlate : s.EntryWork (s.bump .lateFrames) := of_same rfl rfl rfl rfl
  unfold Station.takeAnswer
  split
  next hm =>
    have hactive : (s.entry (tagIndex g)).Active := by
      simp only [Entry.matchesTag, Entry.live, Bool.and_eq_true, bne_iff_ne, Bool.not_eq_true'] at hm
      exact hm.1
    cases ha : s.answerEntry (tagIndex g) a with
    | none => exact hlate
    | some t => exact answerEntry hactive ha
  next => exact hlate

theorem handOnAnswer (a : Answer) (rest : List Answer) : s.EntryWork (s.handOnAnswer a rest) := by
  have hu : s.EntryWork { s with index.answers := rest } := of_same rfl rfl rfl rfl
  unfold Station.handOnAnswer
  (repeat' split)
  · exact hu.trans (takeAnswer _ _)
  all_goals exact of_same rfl rfl rfl rfl

/-! #### Deadlines -/

theorem answerExpired (h : (s.entry i).deadline ≠ none) : s.EntryWork (s.answerExpired i) := by
  have hactive (hf : (s.entry i).state ≠ .free) (hs : (s.entry i).Sound) : (s.entry i).Active :=
    ⟨hf, hs.not_closing_of_deadline h⟩
  have hclear : s.EntryWork (s.deadlineCleared i) := of_entry .noDeadline
  have hfails (hs : (s.entry i).state = .asking ∨ (s.entry i).state = .committing) : s.EntryWork (s.answerExpired i) := by
    rw [Station.answerExpired_fails hs, ← Station.attemptFailed_eq]
    exact attemptFailed (hactive (by rcases hs with hs | hs <;> simp [hs]))
  cases hs : (s.entry i).state with
  | asking => exact hfails (.inl hs)
  | committing => exact hfails (.inr hs)
  | releasing =>
    have he : s.answerExpired i = (s.deadlineCleared i).giveUp .uncertain i := by
      simp [Station.answerExpired, Station.deadlineCleared, hs]
    rw [he]
    exact hclear.trans (giveUp _)
  | free | holding | storing | resolved | orphan =>
    have he : s.answerExpired i = s.deadlineCleared i := by simp [Station.answerExpired, Station.deadlineCleared, hs]
    rw [he]
    exact hclear

theorem holdExpired (h : (s.entry i).deadline ≠ none) : s.EntryWork (s.holdExpired i) := by
  unfold Station.holdExpired
  dsimp only
  split
  next hs =>
    exact of_setEntry (.toOrphan (slotMove_toStoring _) _ _
      (fun hsound => ⟨by simp [hs], hsound.not_closing_of_deadline h⟩) (by simp [hs]))
  next => exact setEntry .noDeadline

theorem orphanExpired : s.EntryWork (s.orphanExpired i) := by
  unfold Station.orphanExpired
  dsimp only
  split
  next hs => exact setEntry (.closeOwing _ fun _ => by simp [hs])
  next => exact setEntry (.release slotMove_id)
  next => exact setEntry .noDeadline

theorem entryExpired (i : EntryIndex) : s.EntryWork (s.entryExpired i) := by
  unfold Station.entryExpired Station.expireEntry
  split
  next hd =>
    (repeat' split)
    · exact answerExpired (by simp [hd])
    · exact holdExpired (by simp [hd])
    · exact orphanExpired
    · exact refl
  next => exact refl

theorem actDeadline (d : Deadline) : s.EntryWork (s.actDeadline d) := by
  cases d with
  | claim p => exact of_same (t := s.markDue p)
  | entry i => exact entryExpired i
  | peer p => exact of_same (t := s.markSilence p)
  | beacon => exact of_same (t := s.beaconExpired)

/-! #### The cleanup toward a lost or restarted owner -/

theorem cleanLost (i : EntryIndex) : s.EntryWork (s.cleanLost i) := by
  unfold Station.cleanLost
  dsimp only
  split
  · exact setEntry (.release slotMove_id)
  split
  next => exact of_setEntry (.release (slotMove_toStoring _))
  next => exact of_setEntry (.release (slotMove_toStoring _))
  next => exact of_setEntry (.release (slotMove_resolve _ _))
  next => exact giveUp _
  next hs => exact setEntry (.closeOwing _ fun _ => by simp [hs])
  next => exact setEntry (.release slotMove_id)
  all_goals exact refl

theorem cleanRestarted (i : EntryIndex) : s.EntryWork (s.cleanRestarted i) := by
  unfold Station.cleanRestarted
  dsimp only
  split
  · exact setEntry (.release slotMove_id)
  (repeat' split)
  next => exact of_setEntry (.release (slotMove_toStoring _))
  next => exact of_setEntry (.release (slotMove_toStoring _))
  next hr => exact sendFailed (active_of_sent hr)
  next => exact refl
  next hr => exact sendFailed (active_of_sent hr)
  next => exact refl
  next hs => exact setEntry (.closeOwing _ fun _ => by simp [hs])
  next => exact setEntry (.release slotMove_id)
  all_goals exact refl

theorem cleanExchange (r : Bool) (p : StationNo) : s.EntryWork (s.cleanExchange r p) := by
  unfold Station.cleanExchange
  refine List.foldlRecOn (motive := s.EntryWork) _ _ refl fun u hu i _ => hu.trans ?_
  unfold Station.cleanEntry
  split
  · cases r with
    | true => exact cleanRestarted i
    | false => exact cleanLost i
  · exact refl

theorem cleanupPeer (r : Bool) (p : StationNo) : s.EntryWork (s.cleanupPeer r p) := by
  have hpurge (u : Station) : u.EntryWork (u.purge p) := of_same
  have hoffer (u : Station) (x : WorkItem) : u.EntryWork (u.offerPeerItem x) := of_same
  exact ((cleanExchange r p).trans (hpurge _)).trans (hoffer _ _)

theorem silencePeer (p : StationNo) : s.EntryWork (s.silencePeer p) := by
  have hpeer (x : Peer) : s.EntryWork (s.setPeer p x) := of_same
  have hreport (u : Station) : u.EntryWork (u.reportPeer .silent p) := of_same
  exact ((hpeer _).trans (cleanupPeer false p)).trans (hreport _)

theorem decideBeacon (p : StationNo) (b : Bool) (z : BitVec 4) : s.EntryWork (s.decideBeacon p b z) := by
  unfold Station.decideBeacon
  dsimp only
  (repeat' split)
  · exact of_same
  · exact refl
  · exact of_same
  · exact (cleanupPeer true p).trans of_same
  · exact refl

theorem takeBeacon : s.EntryWork s.takeBeacon := by
  unfold Station.takeBeacon
  (repeat' split)
  · refine .trans (t := { s with bus.inbound := _ }) ?_ (decideBeacon _ _ _)
    exact of_same rfl rfl rfl rfl
  all_goals exact refl

/-! #### Requests handed on, reports made ready -/

theorem deliverSelf {p : HandOnPath} (h : s.PendingOn p i) : s.EntryWork (s.deliverSelf i) := by
  obtain ⟨-, ⟨k, hr⟩, ho, -⟩ := h
  rw [Station.deliverSelf, hr]
  exact of_entry (.handedOn hr ho _)

theorem deliverBus {p : HandOnPath} (h : s.PendingOn p i) : s.EntryWork (s.deliverBus i) := by
  obtain ⟨-, ⟨k, hr⟩, ho, -⟩ := h
  rw [Station.deliverBus, hr]
  exact of_entry (.handedOn hr ho _)

theorem recordOffer (p : HandOnPath) (i : EntryIndex) : s.EntryWork (s.recordOffer p i) := by
  cases p <;> exact of_same rfl rfl rfl rfl

/-- What a path offers is a request that it may take. -/
theorem pendingOn_of_offered {p : HandOnPath} (h : s.offered p = some i) : s.PendingOn p i := by
  unfold Station.offered at h
  dsimp only at h
  (repeat' split at h)
  · cases h
    exact (Station.offerStands_iff.1 ‹_›).1
  all_goals exact Station.offers_iff.1 (ringFind_has h)

theorem handOnSelf (h : s.offered .self = some i) : s.EntryWork (s.handOnSelf i) := by
  unfold Station.handOnSelf
  (repeat' split)
  · exact recordOffer _ i
  · exact refl
  · exact deliverSelf (pendingOn_of_offered h)

theorem handOnBus (h : s.offered .bus = some i) : s.EntryWork (s.handOnBus i) := by
  unfold Station.handOnBus
  (repeat' split)
  · exact recordOffer _ i
  · exact deliverBus (pendingOn_of_offered h)
  · exact refl

theorem admitSource {x : Source} (h : s.sourceWaits x = true) : s.EntryWork (s.admitSource x) := by
  cases x with
  | bus => exact of_same (t := { s.deliverInbound with index.admittedLast := .bus })
  | roster => exact of_same (t := { s.deliverHeld with index.admittedLast := .roster })
  | exchange =>
    change s.pathWaits .self = true at h
    unfold Station.pathWaits Exchange.offer at h
    unfold Station.admitSource
    dsimp only at h ⊢
    split
    next o ho =>
      rw [ho] at h
      refine (deliverSelf (Station.offerStands_iff.1 h).1).trans ?_
      exact of_same rfl rfl rfl rfl
    next => exact of_same rfl rfl rfl rfl

/-! #### The entries of an aborted lane -/

theorem abortSlots (l : LaneNo) (seqs : List Word) : s.EntryWork (seqs.foldl (Station.abortSlot l) s) := by
  refine List.foldlRecOn (motive := s.EntryWork) _ _ refl fun u hu seq _ => hu.trans ?_
  unfold Station.abortSlot
  split
  next i hi =>
    have hb := (Station.boundEntry_eq_some.1 hi).1
    exact of_entry (.abortBound (by rw [hb]; rfl) _)
  next => exact refl

theorem recipeReported (l : LaneNo) (seq : Word) : s.EntryWork (s.recipeReported l seq) := by
  unfold Station.recipeReported
  split
  · exact setEntry (.release slotMove_id)
  · exact refl

end Station.EntryWork

end Sys2Proof.Machine
end

section
namespace Sys2Proof.Machine

/-! ### Which commands are work on entries, and no more -/

/-- The commands that may touch a lane, the chunker or the tag wait queue otherwise than by work on entries. -/
def Instr.touchesSlots : Instr → Bool
  | .coldReset | .warmReset | .openLane | .resume | .segment | .stored | .storeFailed | .close | .suspend | .abort
  | .release | .burstIssue _ | .burstCompletion | .digestStart | .digestCompletion | .tagGrant | .laneReportReady
  | .reportAppend => true
  | _ => false

/-- Every other command changes entries and the slots that they are bound to, if any of these blocks at all. -/
theorem exec_entryWork {c : Instr} (hd : Instr.isDeadlineRow c = false) (hc : Instr.touchesSlots c = false) {s t : State}
    (ha : s.station.DeadlinesActed) (h : exec c s = .next t) : s.station.EntryWork t.station := by
  rw [← Station.settled_of_acted ha]
  cases c with
  | coldRelease => exact .of_blocks (by simp [execColdRelease_frame h])
  | warmRelease => exact .of_blocks (by simp [execWarmRelease_frame h])
  | stagingWrite => exact .of_blocks (by simp [execStagingWrite_frame h])
  | reportWordRead => exact .of_blocks (by simp [execReportWordRead_frame h])
  | statusWordRead => exact .of_blocks (by simp [execStatusWordRead_frame h])
  | commandWordWrite => exact .of_blocks (by simp [execCommandWordWrite_frame h])
  | poolSet => exact .of_blocks (by simp [execPoolSet_frame h])
  | configure => exact .of_blocks (by simp [execConfigure_frame h])
  | start => exact .of_blocks (by simp [execStart_frame h])
  | stats => exact .of_blocks (by simp [execStats_frame h])
  | unknownCommand => exact .of_blocks (by simp [execUnknownCommand_frame h])
  | leaseTick => exact .of_blocks (by simp [execLeaseTick_frame h])
  | leaseExpiry => exact .of_blocks (by simp [execLeaseExpiry_frame h])
  | ask => exact .of_blocks (by simp [execAsk_frame h])
  | commit => exact .of_blocks (by simp [execCommit_frame h])
  | drop => exact .of_blocks (by simp [execDrop_frame h])
  | releaseItem => exact .of_blocks (by simp [execReleaseItem_frame h])
  | peerLost => exact .of_blocks (by simp [execPeerLost_frame h])
  | peerRestarted => exact .of_blocks (by simp [execPeerRestarted_frame h])
  | bucketWriteDone => exact .of_blocks (by simp [execBucketWriteDone_frame h])
  | scrubWriteDone => exact .of_blocks (by simp [execScrubWriteDone_frame h])
  | fetchReadCompletion => exact .of_blocks (by simp [execFetchReadCompletion_frame h])
  | fetchTimeout => exact .of_blocks (by simp [execFetchTimeout_frame h])
  | contention => exact .of_blocks (by simp [execContention_frame h])
  | yieldClear => exact .of_blocks (by simp [execYieldClear_frame h])
  | frameReceived => exact .of_blocks (by simp [execFrameReceived_frame h])
  | frameAbandoned => exact .of_blocks (by simp [execFrameAbandoned_frame h])
  | peerJoin => exact .of_blocks (by simp [execPeerJoin_frame h])
  | conflictReport => exact .of_blocks (by simp [execConflictReport_frame h])
  | answerHandOn =>
    cases h
    dsimp only
    (repeat' split)
    · exact .handOnAnswer _ _
    all_goals exact .refl
  | workQueueAdmit =>
    cases h
    dsimp only
    split
    · split
      next hn => exact .admitSource (List.find?_some hn)
      next => exact .refl
    · exact .refl
  | requestHandOn path =>
    cases h
    dsimp only
    split
    next ho =>
      cases path with
      | self => exact .handOnSelf ho
      | bus => exact .handOnBus ho
    next => exact .refl
  | exchangeReportReady =>
    cases h
    dsimp only
    (repeat' split)
    · exact .refl
    · exact .of_entry .reportMade
    · exact .refl
  | attemptEnd =>
    have hyield (u : Station) (y : Bool) : u.EntryWork { u with bus.yield := y } := .of_same rfl rfl rfl rfl
    have hcells (u : Station) (y : Bool) (v : List Bool) : u.EntryWork { u with bus.yield := y, bus.sentCells := v } :=
      .of_same rfl rfl rfl rfl
    cases h
    dsimp only
    (repeat' split)
    · exact (hcells _ _ _).trans (.endAttempt _ _)
    · exact (hyield _ _).trans (.endAttempt _ _)
    · exact .refl
  | inboundDispatch =>
    have htail (u : Station) (fs : List Frame) : u.EntryWork { u with bus.inbound := fs } := .of_same rfl rfl rfl rfl
    cases h
    dsimp only
    (repeat' split)
    · exact (htail _ _).trans (.takeAnswer _ _)
    · exact .takeBeacon
    iterate 4 exact .of_same
    exact .refl
  | peerSilent =>
    have hnext (u : Station) (p : Fin 15) : u.EntryWork { u with roster.next := p } := .of_same rfl rfl rfl rfl
    cases h
    dsimp only
    (repeat' split)
    · exact .refl
    · exact (hnext _ _).trans (.silencePeer _)
    · exact .refl
  | beaconTaken => cases h; exact .takeBeacon
  | leaseDeadline | answerDeadline | holdDeadline | orphanHoldDeadline | silenceDeadline | beaconDue => cases hd
  | _ => cases hc

end Sys2Proof.Machine
end

section
namespace Sys2Proof.Machine

/-! ### Every entry stays sound (R63, R65, R66) -/

theorem Station.entriesSound_reset {s : Station} (h : s.exchange = Exchange.reset) : s.EntriesSound := fun i => by
  have hi : s.entry i = ({} : Entry).freed := by
    unfold Station.entry
    rw [h]
    exact Vector.getElem_replicate i.isLt
  rw [hi]
  exact Entry.Sound.freed

namespace Station.EntriesSound
variable {s t : Station}

theorem of_entries (h : s.EntriesSound) (e : t.exchange.entries = s.exchange.entries) : t.EntriesSound := fun i => by
  have hi : t.entry i = s.entry i := congrArg (·[i]) e
  rw [hi]
  exact h i

theorem of_exchange (h : s.EntriesSound) (e : t.exchange = s.exchange) : t.EntriesSound := h.of_entries (by rw [e])

theorem setEntry (h : s.EntriesSound) {i : EntryIndex} {e : Entry} (he : e.Sound)
    (ht : t.exchange = s.exchange := by simp) : (t.setEntry i e).EntriesSound := fun j => by
  rw [Station.entry_setEntry]
  split
  · exact he
  · exact h.of_exchange ht j

theorem of_work (h : s.EntriesSound) (hw : s.EntryWork t) : t.EntriesSound :=
  hw.keeps (fun _ _ _ _ _ hc hu => (hu.setEntry (hc.change.sound (hu _)) rfl).of_entries hc.entries) h

theorem abortLane (h : s.EntriesSound) (l : LaneNo) (r : AbortReason) : (s.abortLane l r).EntriesSound := by
  have hqueue (q : List TagRequest) : ({ s with exchange.waitQueue := q } : Station).EntriesSound := h.of_entries rfl
  have hslots : (s.abortExchange l).EntriesSound := (hqueue _).of_work (.abortSlots l _)
  exact hslots.of_exchange rfl

theorem storedSlot (h : s.EntriesSound) (b : Binding) (r : Option Reason) (l : Locator) :
    (s.storedSlot b r l).EntriesSound := by
  have hmove (f : Slot → Slot) : (s.moveSlot (some b) f).EntriesSound := h.of_exchange (by simp)
  unfold Station.storedSlot Station.commitBound
  cases r with
  | some r => exact hmove _
  | none =>
    dsimp only
    split
    next i hi =>
      refine (hmove _).setEntry ((hmove _ i).commitBound ?_ l) rfl
      rw [(Station.boundEntry_eq_some.1 hi).1]
      rfl
    next => exact hmove _

theorem grant (h : s.EntriesSound) (r : TagRequest) (i : EntryIndex) : (s.grant r i).EntriesSound := by
  unfold Station.grant
  (repeat' split)
  · exact h.setEntry (Entry.grantLookup_sound ..)
  · exact h.of_exchange (by simp)
  · exact h.setEntry (Entry.grantRelease_sound ..)

theorem completeBurst (h : s.EntriesSound) (b : Burst) (f : Fetch) : (s.completeBurst b f).EntriesSound := by
  have hu : ({ s with chunker.burst := none, fetch.burst := none } : Station).EntriesSound := h.of_entries rfl
  unfold Station.completeBurst
  dsimp only
  (repeat' split)
  · exact hu
  · exact hu.of_exchange (by simp)
  · exact hu.abortLane _ _

theorem digestDone (h : s.EntriesSound) (d : DigestEntry) : (s.digestDone d).EntriesSound := by
  refine h.of_entries ?_
  unfold Station.digestDone Station.lookupCheck
  dsimp only
  (repeat' split) <;> simp

theorem appendReport (h : s.EntriesSound) (p : Producer) (r : Report) : (s.appendReport p r).EntriesSound := by
  unfold Station.appendReport
  split
  · cases p with
    | lane =>
      cases r with
      | recipe l q =>
        unfold Station.tellProducer
        dsimp only
        refine of_work ?_ (.recipeReported l q)
        exact h.of_entries rfl
      | _ => exact h.of_entries rfl
    | _ => exact h.of_entries rfl
  · exact h.of_entries rfl

/-! #### Commands -/

theorem takeHead (h : s.EntriesSound) {n : Nat} {decide : CmdEntry → Station → Option Station}
    (hd : ∀ e x y, x.EntriesSound → decide e x = some y → y.EntriesSound) : (s.takeHead n decide).EntriesSound := by
  rcases s.takeHead_cases n decide with e | ⟨e, rest, -, -, -, hy⟩
  · rw [e]; exact h
  · exact hd e { s with port.fifo := rest } _ (h.of_entries rfl) hy

theorem takeLaneCommand (h : s.EntriesSound) {n : Nat} {decide : CmdEntry → Station → Except CmdErrorCode Station}
    (hd : ∀ e x y, x.EntriesSound → decide e x = .ok y → y.EntriesSound) : (s.takeLaneCommand n decide).EntriesSound := by
  rcases s.takeLaneCommand_cases n decide with e | ⟨e, rest, -, -, -, ⟨-, hy⟩ | ⟨-, x, -, hy⟩ | ⟨-, hy⟩⟩
  · rw [e]; exact h
  · rw [hy]; exact h.of_entries rfl
  · rw [hy]; exact h.of_entries rfl
  · exact hd e { s with port.fifo := rest } _ (h.of_entries rfl) hy

theorem decideStored (h : s.EntriesSound) {e : CmdEntry} (ht : s.decideStored e = .ok t) : t.EntriesSound := by
  unfold Station.decideStored at ht
  dsimp only at ht
  (repeat' split at ht) <;> cases ht
  exact h.storedSlot _ _ _

theorem decideStoreFailed (h : s.EntriesSound) {e : CmdEntry} (ht : s.decideStoreFailed e = .ok t) : t.EntriesSound := by
  unfold Station.decideStoreFailed at ht
  dsimp only at ht
  (repeat' split at ht) <;> cases ht
  exact h.abortLane _ _

theorem decideAbort (h : s.EntriesSound) {e : CmdEntry} (ht : s.decideAbort e = .ok t) : t.EntriesSound := by
  unfold Station.decideAbort at ht
  split at ht <;> cases ht
  exact h.abortLane _ _

theorem decideRelease (h : s.EntriesSound) {e : CmdEntry} (ht : s.decideRelease e = some t) : t.EntriesSound := by
  unfold Station.decideRelease at ht
  dsimp only at ht
  (repeat' split at ht) <;> cases ht <;> exact h.of_entries rfl

end Station.EntriesSound

theorem exec_keeps_entriesSound {c : Instr} {s t : State} (hd : Instr.isDeadlineRow c = false)
    (ha : s.station.DeadlinesActed) (hs : s.station.EntriesSound) (h : exec c s = .next t) : t.station.EntriesSound := by
  cases hc : Instr.touchesSlots c with
  | false => exact hs.of_work (exec_entryWork hd hc ha h)
  | true =>
    rw [← Station.settled_of_acted ha] at hs
    cases c with
    | coldReset => cases h; exact Station.entriesSound_reset rfl
    | warmReset =>
      cases h
      dsimp only
      split
      · exact hs.of_entries rfl
      · exact Station.entriesSound_reset rfl
    | openLane => exact hs.of_exchange (by simp [execOpenLane_frame h])
    | resume => exact hs.of_exchange (by simp [execResume_frame h])
    | segment => exact hs.of_exchange (by simp [execSegment_frame h])
    | close => exact hs.of_exchange (by simp [execClose_frame h])
    | suspend => exact hs.of_exchange (by simp [execSuspend_frame h])
    | burstIssue => exact hs.of_exchange (by simp [execBurstIssue_frame h])
    | digestStart => exact hs.of_exchange (by simp [execDigestStart_frame h])
    | laneReportReady => exact hs.of_exchange (by simp [execLaneReportReady_frame h])
    | stored => cases h; exact hs.takeLaneCommand fun _ _ _ hx hy => hx.decideStored hy
    | storeFailed => cases h; exact hs.takeLaneCommand fun _ _ _ hx hy => hx.decideStoreFailed hy
    | abort => cases h; exact hs.takeLaneCommand fun _ _ _ hx hy => hx.decideAbort hy
    | release => cases h; exact hs.takeHead fun _ _ _ hx hy => hx.decideRelease hy
    | burstCompletion =>
      cases h
      dsimp only
      (repeat' split)
      · exact hs.completeBurst _ _
      all_goals exact hs
    | digestCompletion =>
      cases h
      dsimp only
      (repeat' split)
      · exact hs.of_entries rfl
      · refine Station.EntriesSound.digestDone ?_ _
        exact hs.of_entries rfl
      · exact hs
    | tagGrant =>
      cases h
      dsimp only
      split
      · refine Station.EntriesSound.grant ?_ _ _
        exact hs.of_entries rfl
      · exact hs
    | reportAppend =>
      cases h
      dsimp only
      (repeat' split)
      · exact hs.appendReport _ _
      all_goals exact hs
    | _ => cases hc

theorem entriesSound_keptByDeadlines : KeptByDeadlines Station.EntriesSound := fun s d ds _ h =>
  Station.EntriesSound.of_work (s := { s with clock.reached := ds }) (h.of_entries rfl) (.actDeadline d)

/-- Settles O9: every command is work on entries, each change of which keeps to Tables 4.1 and 4.2, or sets an entry
anew at a grant, a commit or an abort. -/
theorem outstandingEntriesStaySound : Obligations.OutstandingEntriesStaySound := fun _ _ hs h =>
  step_keeps (fun _ h => h) entriesSound_keptByDeadlines (fun _ _ h => h.of_exchange (by simp))
    (fun _ _ _ hd ha hs h => exec_keeps_entriesSound hd ha hs h) hs h

end Sys2Proof.Machine
end

section
namespace Sys2Proof.Machine

/-! ### Answers taken by the exchange unit (R67, R75, R77, R79, R81, R82, R86, R87) -/

theorem tagIndex_eq_of_mod {tag : Tag} {i : EntryIndex} (h : tag.toNat % 256 = i.val) : tagIndex tag = i := by
  rw [tagIndex_eq]
  exact Fin.ext h

/-- The entry that an answer's tag names takes it where it is live, not closing and of the tag's round (R67). -/
theorem Entry.matchesTag_iff {tag : Tag} {e : Entry} : e.matchesTag tag = true ↔
    e.state ≠ .free ∧ e.closing = false ∧ e.round.toNat = tag.toNat / 256 := by
  simp only [Entry.matchesTag, Entry.live, Bool.and_eq_true, bne_iff_ne, ne_eq, Bool.not_eq_true', beq_iff_eq, and_assoc,
    ← BitVec.toNat_inj, tagRound_toNat]

/-- An answer that its entry cannot take is a late frame (R67). -/
theorem Station.takeAnswer_unmatched {tag : Tag} {i : EntryIndex} (hi : tag.toNat % 256 = i.val) {s : Station}
    (h : (s.entry i).matchesTag tag = false) (a : AnswerBody) : s.takeAnswer tag a = s.counted 5 := by
  rw [Station.takeAnswer, tagIndex_eq_of_mod hi, h]
  rfl

/-- Otherwise the entry's state decides. -/
theorem Station.takeAnswer_matched {tag : Tag} {i : EntryIndex} (hi : tag.toNat % 256 = i.val) {s : Station}
    (h : (s.entry i).matchesTag tag = true) (a : AnswerBody) :
    s.takeAnswer tag a = (s.answerEntry i a).getD (s.counted 5) := by
  rw [Station.takeAnswer, tagIndex_eq_of_mod hi, h]
  rfl

section Heads
variable {s : Station} (ha : s.DeadlinesActed) (q : List Instr) {f : Frame} {fs : List Frame} {a : AnswerBody}
  {i : EntryIndex} (h : s.AnswerHead f fs a i)
include ha h

theorem exec_answer_unaccepted (hn : ¬s.Accepts f i) :
    exec .inboundDispatch ⟨s, q⟩ = .next ⟨(s.inboundTaken fs).counted 5, q⟩ := by
  have hm : ((s.inboundTaken fs).entry i).matchesTag f.tag = false :=
    Bool.eq_false_iff.2 fun hm => hn (Entry.matchesTag_iff.1 hm)
  rw [← Station.takeAnswer_unmatched h.index hm a]
  exact exec_inboundDispatch_answer ha q h.head h.body

theorem exec_answer_accepted (hc : s.Accepts f i) : exec .inboundDispatch ⟨s, q⟩ =
    .next ⟨((s.inboundTaken fs).answerEntry i a).getD ((s.inboundTaken fs).counted 5), q⟩ := by
  have hm : ((s.inboundTaken fs).entry i).matchesTag f.tag = true := Entry.matchesTag_iff.2 hc
  rw [← Station.takeAnswer_matched h.index hm a]
  exact exec_inboundDispatch_answer ha q h.head h.body

variable (hc : s.Accepts f i)
include hc

/-- An answer that a rule takes. -/
theorem exec_answer_taken {t : Station} (ht : (s.inboundTaken fs).answerEntry i a = some t) :
    exec .inboundDispatch ⟨s, q⟩ = .next ⟨t, q⟩ := by
  rw [exec_answer_accepted ha q h hc, ht]
  rfl

/-- An answer that no rule takes is a late frame. -/
theorem exec_answer_late (ht : (s.inboundTaken fs).answerEntry i a = none) :
    exec .inboundDispatch ⟨s, q⟩ = .next ⟨(s.inboundTaken fs).counted 5, q⟩ := by
  rw [exec_answer_accepted ha q h hc, ht]
  rfl

end Heads

/-! #### What an answer says, in a VERDICT or a NOTICE (R75) -/

section Verdicts
variable {a : AnswerBody}

theorem AnswerBody.asVerdict_known {l : Locator} (h : a = .verdict (.known l) ∨ a = .notice (.known l)) :
    a.asVerdict = some (.known l) := by
  rcases h with rfl | rfl <;> rfl

theorem AnswerBody.asVerdict_write (h : a = .verdict .write ∨ a = .notice .write) : a.asVerdict = some .write := by
  rcases h with rfl | rfl <;> rfl

theorem AnswerBody.asVerdict_none (h : (∃ r, a = .commitReply r) ∨ ∃ o, a = .releaseReply o) : a.asVerdict = none := by
  rcases h with ⟨_, rfl⟩ | ⟨_, rfl⟩ <;> rfl

end Verdicts

/-! #### The answers that each state takes -/

section States
variable {s : Station} {i : EntryIndex} {a : AnswerBody}

/-- An ASKING or HOLDING entry takes KNOWN. -/
theorem Station.answerEntry_known {l : Locator} (hs : (s.entry i).state = .asking ∨ (s.entry i).state = .holding)
    (hv : a.asVerdict = some (.known l)) : s.answerEntry i a = some (s.takeKnown i l) := by
  rcases hs with hs | hs <;> simp [Station.answerEntry, hs, Station.answerAsking, Station.answerHolding, hv]

theorem Station.answerEntry_write (hs : (s.entry i).state = .asking ∨ (s.entry i).state = .holding)
    (hv : a.asVerdict = some .write) : s.answerEntry i a = some (s.takeWrite i) := by
  rcases hs with hs | hs <;> simp [Station.answerEntry, hs, Station.answerAsking, Station.answerHolding, hv]

theorem Station.answerEntry_no_verdict (hs : (s.entry i).state = .asking ∨ (s.entry i).state = .holding)
    (hv : a.asVerdict = none) : s.answerEntry i a = none := by
  rcases hs with hs | hs <;> simp [Station.answerEntry, hs, Station.answerAsking, Station.answerHolding, hv]

theorem Station.answerEntry_hold (hs : (s.entry i).state = .asking) : s.answerEntry i (.verdict .hold) =
    some ((s.moveSlot (s.entry i).binding fun y => { y with state := .holding }).setEntry i
      { (s.entry i).into .holding with deadline := some (.hold, s.clock.now + 160) }) := by
  simp only [Station.answerEntry, hs]
  rfl

theorem Station.answerEntry_noindex (hs : (s.entry i).state = .asking) (r : NoindexReason) :
    s.answerEntry i (.verdict (.noindex r)) =
      some ((s.slotUnindexed r.reason (s.entry i).binding).setEntry i (s.entry i).freedOrOwing) := by
  rw [← Entry.release_eq, ← Station.storeUnindexed_eq]
  simp only [Station.answerEntry, hs]
  rfl

/-- A HOLDING entry takes neither HOLD nor NOINDEX. -/
theorem Station.answerEntry_holding_none (hs : (s.entry i).state = .holding)
    (hv : a = .verdict .hold ∨ ∃ r, a = .verdict (.noindex r)) : s.answerEntry i a = none := by
  rcases hv with rfl | ⟨r, rfl⟩ <;> simp [Station.answerEntry, hs, Station.answerHolding, AnswerBody.asVerdict]

end States

/-- The reasons that NOINDEX can carry, each with the slot's (R75). -/
theorem NoindexReason.reason_of_mem {r : NoindexReason} {r' : Reason}
    (h : (r, r') ∈ [(NoindexReason.waitersFull, Reason.waitersFull), (.claimsFull, .claimsFull),
      (.bucketFull, .bucketFull), (.poolIsolated, .poolIsolated)]) : r.reason = r' := by
  simp only [List.mem_cons, Prod.mk.injEq, List.not_mem_nil, or_false] at h
  rcases h with ⟨rfl, rfl⟩ | ⟨rfl, rfl⟩ | ⟨rfl, rfl⟩ | ⟨rfl, rfl⟩ <;> rfl

/-- Settles O43. -/
theorem lookupAnswersTaken : Obligations.LookupAnswersTaken := by
  intro s ha q f fs a i h e t late
  refine ⟨exec_answer_unaccepted ha q h, fun hc hs => ?_, fun hc hs => ⟨fun l hl => ?_, fun hw => ?_, fun hn => ?_⟩,
    fun hc hs => ⟨fun hh => ?_, fun r r' hr hn => ?_⟩, fun hc hs hv => ?_⟩
  · refine exec_answer_late ha q h hc ?_
    have hs' : (t.entry i).state = .storing ∨ (t.entry i).state = .resolved := hs
    rcases hs' with hs | hs <;> simp only [Station.answerEntry, t, hs]
  · exact exec_answer_taken ha q h hc (Station.answerEntry_known (s := t) hs (AnswerBody.asVerdict_known hl))
  · exact exec_answer_taken ha q h hc (Station.answerEntry_write (s := t) hs (AnswerBody.asVerdict_write hw))
  · exact exec_answer_late ha q h hc (Station.answerEntry_no_verdict (s := t) hs (AnswerBody.asVerdict_none hn))
  · subst hh
    exact exec_answer_taken ha q h hc (Station.answerEntry_hold (s := t) hs)
  · subst hn
    rw [← NoindexReason.reason_of_mem hr]
    exact exec_answer_taken ha q h hc (Station.answerEntry_noindex (s := t) hs r)
  · exact exec_answer_late ha q h hc (Station.answerEntry_holding_none (s := t) hs hv)

end Sys2Proof.Machine
end

section
namespace Sys2Proof.Machine

/-! ### Answers to commits and releases (R79, R81, R82) -/

section Commits
variable {s : Station} {i : EntryIndex} {a : AnswerBody} (hs : (s.entry i).state = .committing)
include hs

theorem Station.answerEntry_indexed : s.answerEntry i (.commitReply .indexed) =
    some ((s.moveSlot (s.entry i).binding fun y =>
      { y with state := .resolved .new, locator := some ((s.entry i).locator.getD 0) }).setEntry i
        ((s.entry i).into .resolved)) := by
  simp only [Station.answerEntry, hs]
  rfl

theorem Station.answerEntry_superseded (m : Locator) : s.answerEntry i (.commitReply (.superseded m)) =
    some ((s.moveSlot (s.entry i).binding fun y => { y with state := .resolved .dup, locator := some m }).setEntry i
      { (s.entry i).into .resolved with
        owed := some (.reclaim ((s.entry i).locator.getD 0)), locator := some m }) := by
  simp only [Station.answerEntry, hs]
  rfl

theorem Station.answerEntry_notIndexed : s.answerEntry i (.commitReply .notIndexed) =
    some (((s.moveSlot (s.entry i).binding fun y =>
      { y with state := .resolved (.unindexed .notIndexed), locator := some ((s.entry i).locator.getD 0) }).counted
        20).setEntry i (s.entry i).freedOrOwing) := by
  rw [← Entry.release_eq]
  simp only [Station.answerEntry, hs]
  rfl

theorem Station.answerEntry_no_commitReply (hn : ∀ r, a ≠ .commitReply r) : s.answerEntry i a = none := by
  simp only [Station.answerEntry, hs]
  cases a with
  | commitReply r => exact absurd rfl (hn r)
  | verdict | notice | releaseReply => rfl

end Commits

section Releases
variable {s : Station} {i : EntryIndex} {a : AnswerBody} (hs : (s.entry i).state = .releasing)
include hs

theorem Station.answerEntry_hostRelease (hk : (s.entry i).kind = .hostRelease) (o : ReleaseOutcome) :
    s.answerEntry i (.releaseReply o) = some (s.setEntry i ((s.entry i).owing (.released (.reply o)))) := by
  simp only [Station.answerEntry, hs, Station.answerReleasing, hk]
  rfl

theorem Station.answerEntry_retired (hk : (s.entry i).kind = .compensation) : s.answerEntry i (.releaseReply .retired) =
    some (s.setEntry i ((s.entry i).owing (.reclaim ((s.entry i).locator.getD 0)))) := by
  simp only [Station.answerEntry, hs, Station.answerReleasing, hk]
  rfl

theorem Station.answerEntry_not_retired (hk : (s.entry i).kind = .compensation) {o : ReleaseOutcome} (ho : o ≠ .retired) :
    s.answerEntry i (.releaseReply o) = some (s.setEntry i (s.entry i).freedOrOwing) := by
  rw [← Entry.release_eq]
  simp only [Station.answerEntry, hs, Station.answerReleasing, hk]
  cases o with
  | retired => exact absurd rfl ho
  | pinned | counted | notFound => rfl

theorem Station.answerEntry_no_releaseReply (hn : ∀ o, a ≠ .releaseReply o) : s.answerEntry i a = none := by
  simp only [Station.answerEntry, hs]
  cases a with
  | releaseReply o => exact absurd rfl (hn o)
  | verdict | notice | commitReply => rfl

end Releases

/-- Settles O44. -/
theorem commitAndReleaseAnswersTaken : Obligations.CommitAndReleaseAnswersTaken := by
  intro s ha q f fs a i h hc e own t
  refine ⟨fun hs => ⟨?_, ?_, ?_, fun hn => ?_⟩, fun hs => ⟨?_, fun hn => ?_⟩⟩
  · rintro rfl
    exact exec_answer_taken ha q h hc (Station.answerEntry_indexed (s := t) hs)
  · rintro m rfl
    exact exec_answer_taken ha q h hc (Station.answerEntry_superseded (s := t) hs m)
  · rintro rfl
    exact exec_answer_taken ha q h hc (Station.answerEntry_notIndexed (s := t) hs)
  · exact exec_answer_late ha q h hc (Station.answerEntry_no_commitReply (s := t) hs hn)
  · rintro o rfl
    refine ⟨fun hk => ?_, ?_, fun hk ho => ?_⟩
    · exact exec_answer_taken ha q h hc (Station.answerEntry_hostRelease (s := t) hs hk o)
    · rintro hk rfl
      exact exec_answer_taken ha q h hc (Station.answerEntry_retired (s := t) hs hk)
    · exact exec_answer_taken ha q h hc (Station.answerEntry_not_retired (s := t) hs hk ho)
  · exact exec_answer_late ha q h hc (Station.answerEntry_no_releaseReply (s := t) hs hn)

/-! ### Answers to orphans (R85, R86, R87, Tables 4.5 and 4.6) -/

section AskOrphans
variable {s : Station} {i : EntryIndex} {a : AnswerBody} {o : Origin} (hs : (s.entry i).state = .orphan o)
  (ho : o = .ask ∨ o = .hold)
include hs ho

theorem Station.answerEntry_orphan_known {l : Locator} (hv : a.asVerdict = some (.known l)) :
    s.answerEntry i a = some (s.setEntry i ((s.entry i).compensationFor l)) := by
  rcases ho with rfl | rfl <;> simp only [Station.answerEntry, hs, Station.answerAskOrphan, hv] <;> rfl

theorem Station.answerEntry_orphan_write (hv : a.asVerdict = some .write) :
    s.answerEntry i a = some (s.setEntry i (s.entry i).dropping) := by
  rcases ho with rfl | rfl <;> simp only [Station.answerEntry, hs, Station.answerAskOrphan, hv] <;> rfl

theorem Station.answerEntry_orphan_no_verdict (hv : a.asVerdict = none) : s.answerEntry i a = none := by
  rcases ho with rfl | rfl <;> simp only [Station.answerEntry, hs, Station.answerAskOrphan, hv]

/-- HOLD is for an orphan of origin ASK alone (Table 4.5). -/
theorem Station.answerEntry_orphan_hold : s.answerEntry i (.verdict .hold) =
    if o = .ask then some (s.setEntry i ((s.entry i).orphanOf .hold s.clock.now)) else none := by
  rcases ho with rfl | rfl <;> simp only [Station.answerEntry, hs] <;> rfl

/-- So is NOINDEX. -/
theorem Station.answerEntry_orphan_noindex (r : NoindexReason) : s.answerEntry i (.verdict (.noindex r)) =
    if o = .ask then some (s.setEntry i (s.entry i).freedOrOwing) else none := by
  rw [← Entry.release_eq]
  rcases ho with rfl | rfl <;> simp only [Station.answerEntry, hs] <;> rfl

end AskOrphans

section CommitOrphans
variable {s : Station} {i : EntryIndex} {a : AnswerBody}

/-- Table 4.6, origin DOUBT-COMMIT. -/
theorem Station.answerEntry_doubt_superseded (hs : (s.entry i).state = .orphan .doubtCommit) (m : Locator) :
    s.answerEntry i (.commitReply (.superseded m)) = some (s.setEntry i ((s.entry i).compensationFor m)) := by
  simp only [Station.answerEntry, hs]
  rfl

theorem Station.answerEntry_doubt_freed (hs : (s.entry i).state = .orphan .doubtCommit)
    (hv : a = .commitReply .indexed ∨ a = .commitReply .notIndexed) :
    s.answerEntry i a = some (s.setEntry i (s.entry i).freedOrOwing) := by
  rw [← Entry.release_eq]
  rcases hv with rfl | rfl <;> simp only [Station.answerEntry, hs] <;> rfl

/-- Table 4.6, origin ABORT-COMMIT. -/
theorem Station.answerEntry_abort_indexed (hs : (s.entry i).state = .orphan .abortCommit) :
    s.answerEntry i (.commitReply .indexed) =
      some (s.setEntry i ((s.entry i).compensationFor ((s.entry i).locator.getD 0))) := by
  simp only [Station.answerEntry, hs]
  rfl

theorem Station.answerEntry_abort_superseded (hs : (s.entry i).state = .orphan .abortCommit) (m : Locator) :
    s.answerEntry i (.commitReply (.superseded m)) = some (s.setEntry i
      { (s.entry i).compensationFor m with owed := some (.reclaim ((s.entry i).locator.getD 0)) }) := by
  simp only [Station.answerEntry, hs]
  rfl

theorem Station.answerEntry_abort_notIndexed (hs : (s.entry i).state = .orphan .abortCommit) :
    s.answerEntry i (.commitReply .notIndexed) =
      some (s.setEntry i ((s.entry i).owing (.reclaim ((s.entry i).locator.getD 0)))) := by
  simp only [Station.answerEntry, hs]
  rfl

theorem Station.answerEntry_commitOrphan_none {o : Origin} (hs : (s.entry i).state = .orphan o)
    (ho : o = .doubtCommit ∨ o = .abortCommit) (hn : ∀ r, a ≠ .commitReply r) : s.answerEntry i a = none := by
  have hlate (b : Bool) : s.answerCommitOrphan i b a = none := by
    cases a with
    | commitReply r => exact absurd rfl (hn r)
    | verdict | notice | releaseReply => rfl
  rcases ho with rfl | rfl <;> simp only [Station.answerEntry, hs, hlate]

end CommitOrphans

/-- Settles O45. -/
theorem orphanAnswersCompensated : Obligations.OrphanAnswersCompensated := by
  intro s ha q f fs a i o h hc hs e own t becomes late
  have taken {u : Station} := exec_answer_taken (t := u) ha q h hc
  have hlate := exec_answer_late ha q h hc
  refine ⟨fun ho => ⟨fun l hl => ?_, fun hw => ?_, ?_, ?_, fun hn => ?_⟩, ?_, ?_⟩
  · exact taken (Station.answerEntry_orphan_known (s := t) hs ho (AnswerBody.asVerdict_known hl))
  · exact taken (Station.answerEntry_orphan_write (s := t) hs ho (AnswerBody.asVerdict_write hw))
  · rintro rfl
    have hhold := Station.answerEntry_orphan_hold (s := t) hs ho
    split
    next hask => exact taken (hhold.trans (if_pos hask))
    next hask => exact hlate (hhold.trans (if_neg hask))
  · rintro r rfl
    have hnoindex := Station.answerEntry_orphan_noindex (s := t) hs ho r
    split
    next hask => exact taken (hnoindex.trans (if_pos hask))
    next hask => exact hlate (hnoindex.trans (if_neg hask))
  · exact hlate (Station.answerEntry_orphan_no_verdict (s := t) hs ho (AnswerBody.asVerdict_none hn))
  · rintro rfl
    refine ⟨?_, fun hv => taken (Station.answerEntry_doubt_freed (s := t) hs hv), fun hn => ?_⟩
    · rintro m rfl
      exact taken (Station.answerEntry_doubt_superseded (s := t) hs m)
    · exact hlate (Station.answerEntry_commitOrphan_none (s := t) hs (.inl rfl) hn)
  · rintro rfl
    refine ⟨?_, ?_, ?_, fun hn => ?_⟩
    · rintro rfl
      exact taken (Station.answerEntry_abort_indexed (s := t) hs)
    · rintro m rfl
      exact taken (Station.answerEntry_abort_superseded (s := t) hs m)
    · rintro rfl
      exact taken (Station.answerEntry_abort_notIndexed (s := t) hs)
    · exact hlate (Station.answerEntry_commitOrphan_none (s := t) hs (.inr rfl) hn)

end Sys2Proof.Machine
end

section
namespace Sys2Proof.Machine

/-! ### Grants of tags (R64, R69, R70) -/

theorem Entry.live_eq_false {e : Entry} : e.live = false ↔ e.state = .free := by
  simp [Entry.live]

theorem Station.freeEntry_eq_some {s : Station} {i : EntryIndex} (hi : (s.entry i).state = .free)
    (hl : ∀ j : EntryIndex, j.val < i.val → (s.entry j).state ≠ .free) : s.freeEntry = some i := by
  refine lowestFind_eq_some.2 ⟨?_, fun j hj => ?_⟩
  · simp [Entry.live_eq_false.2 hi]
  · simpa [Entry.live] using hl j hj

theorem Station.freeEntry_eq_none {s : Station} (h : ∀ j, (s.entry j).state ≠ .free) : s.freeEntry = none :=
  lowestFind_eq_none.2 fun j => by simpa [Entry.live] using h j

section Grants
variable {s : Station} (ha : s.DeadlinesActed) (q : List Instr)
include ha

theorem exec_tagGrant_grants {r : TagRequest} {rest : List TagRequest} {i : EntryIndex}
    (hq : s.exchange.waitQueue = r :: rest) (hf : s.freeEntry = some i) {t : Station}
    (ht : { s with exchange.waitQueue := rest }.grant r i = t) : exec .tagGrant ⟨s, q⟩ = .next ⟨t, q⟩ := by
  subst ht
  simp only [exec, execTagGrant, runEvent_eq, Station.settled_of_acted ha, hq, hf]

theorem exec_tagGrant_nothing (h : s.exchange.waitQueue = [] ∨ s.freeEntry = none) :
    exec .tagGrant ⟨s, q⟩ = .next ⟨s, q⟩ := by
  simp only [exec, execTagGrant, runEvent_eq, Station.settled_of_acted ha]
  rcases h with h | h
  · rw [h]
  · rw [h]
    cases s.exchange.waitQueue <;> rfl

end Grants

section Grant
variable {s : Station} {l : LaneNo} {n : Word} {k : Key} {p : StationNo}

theorem Station.grant_lookup (h : s.Serves p) (i : EntryIndex) : s.grant (.lookup l n k p) i =
    (s.moveSlot (some ⟨l, n⟩) (Slot.enter .asking)).setEntry i ((s.entry i).grantLookup l n k p) :=
  if_pos ((Station.serving_iff p s).2 h)

theorem Station.grant_lookup_absent (h : ¬s.Serves p) (i : EntryIndex) :
    s.grant (.lookup l n k p) i = s.slotUnindexed .ownerAbsent (some ⟨l, n⟩) := by
  rw [← Station.storeUnindexed_eq]
  exact if_neg (mt (Station.serving_iff p s).1 h)

theorem Station.grant_hostRelease (v : Bool) (h : s.serving p = v) (loc : Locator) (c : Cookie) (i : EntryIndex) :
    s.grant (.hostRelease k loc c p) i = s.setEntry i ((s.entry i).grantRelease k loc c p v) := by
  subst h
  rfl

end Grant

/-- Settles O46. -/
theorem tagsGrantedInOrder : Obligations.TagsGrantedInOrder := by
  intro s ha q r rest i
  refine ⟨?_, fun h => exec_tagGrant_nothing ha q (h.imp_right Station.freeEntry_eq_none)⟩
  intro hq hi hl t e
  have grants {u : Station} := exec_tagGrant_grants (t := u) ha q hq (Station.freeEntry_eq_some hi hl)
  refine ⟨?_, ?_, ?_, ?_⟩
  · rintro l n k p rfl hp
    exact grants (Station.grant_lookup (s := t) hp i)
  · rintro l n k p rfl hp
    exact grants (Station.grant_lookup_absent (s := t) hp i)
  · rintro k loc c p rfl hp
    have hv : t.serving p = true := (Station.serving_iff p t).2 hp
    exact grants (Station.grant_hostRelease true hv loc c i)
  · rintro k loc c p rfl hp
    have hv : t.serving p = false := Bool.eq_false_iff.2 (mt (Station.serving_iff p t).1 hp)
    exact grants (Station.grant_hostRelease false hv loc c i)

end Sys2Proof.Machine
end

section
namespace Sys2Proof.Machine

/-! ### Owed reports made ready (R83, R12) -/

/-- A known entry of a code at the head, no CMD_ERROR held, is the statements' head of that code. -/
theorem Station.headIs_of_isCommand {s : Station} {code : Nat} {e : CmdEntry} {rest : List CmdEntry}
    (hf : s.port.fifo = e :: rest) (hr : s.port.cmdReady = none) (hc : e.isCommand code = true) :
    s.HeadIs code e rest := by
  obtain ⟨hcode, hknown⟩ : e.code.toNat = code ∧ commandCount e.code.toNat = some e.count := by
    simpa [CmdEntry.isCommand, CmdEntry.known] using hc
  exact ⟨hf, hr, e.code_toNat.symm.trans hcode, by rw [← hcode, hknown, e.count_eq]⟩

theorem CmdEntry.releaseKey_pool (e : CmdEntry) : e.releaseKey.pool = (e.arg 0).extractLsb' 0 4 :=
  congrArg Key.pool e.releaseKey_eq

/-- The model's test for a waiting host RELEASE of pool 15, in the terms of the statement. -/
theorem Station.isolatedReleaseWaits_iff {s : Station} : s.isolatedReleaseWaits = true ↔
    ∃ e rest, s.HeadIs 13 e rest ∧ s.control.state = .running ∧ (e.arg 6).extractLsb' 0 16 ++ e.arg 5 ≠ 0#48 ∧
      (e.arg 0).extractLsb' 0 4 = 15#4 := by
  have test {e : CmdEntry} {rest : List CmdEntry} (hf : s.port.fifo = e :: rest) : s.isolatedReleaseWaits = true ↔
      ((((s.control.state = .running ∧ s.port.cmdReady = none) ∧ e.isCommand 13 = true) ∧ e.releaseLocator ≠ 0) ∧
        e.releaseKey.pool = 15) := by
    simp [Station.isolatedReleaseWaits, hf, Station.running]
  constructor
  · intro h
    cases hf : s.port.fifo with
    | nil => simp [Station.isolatedReleaseWaits, hf] at h
    | cons e rest =>
      obtain ⟨⟨⟨⟨hrun, hready⟩, hc⟩, hloc⟩, hpool⟩ := (test hf).1 h
      rw [CmdEntry.releaseLocator_eq] at hloc
      rw [CmdEntry.releaseKey_pool] at hpool
      exact ⟨e, rest, Station.headIs_of_isCommand hf hready hc, hrun, hloc, hpool⟩
  · rintro ⟨e, rest, hh, hrun, hloc, hpool⟩
    rw [← CmdEntry.releaseLocator_eq] at hloc
    rw [← CmdEntry.releaseKey_pool] at hpool
    exact (test hh.head).2 ⟨⟨⟨⟨hrun, hh.free⟩, hh.isCommand⟩, hloc⟩, hpool⟩

section Reports
variable {s : Station}

theorem Station.nextOwing_eq_some {i : EntryIndex} {o : OwedReport} (hi : (s.entry i).owed = some o)
    (hfirst : ∀ j : EntryIndex, (j - s.exchange.nextReport).val < (i - s.exchange.nextReport).val →
      (s.entry j).owed = none) : s.nextOwing = some i := by
  refine ringFind_eq_some.2 ⟨by simp [hi], fun k hk => ?_⟩
  simp [hfirst (s.exchange.nextReport + k) (by rwa [add_sub_cancel_left])]

theorem Station.nextOwing_eq_none (h : ∀ j, (s.entry j).owed = none) : s.nextOwing = none :=
  ringFind_eq_none.2 fun j => by simp [h j]

variable (ha : s.DeadlinesActed) (q : List Instr)
include ha

theorem exec_exchangeReportReady_isolated (h : s.isolatedReleaseWaits = true) :
    exec .exchangeReportReady ⟨s, q⟩ = .next ⟨s, q⟩ := by
  simp only [exec, execExchangeReportReady, runEvent_eq, Station.settled_of_acted ha, h, Bool.or_true, if_true]

variable (hready : s.exchange.ready = none) (hw : s.isolatedReleaseWaits = false)
include hready hw

theorem exec_exchangeReportReady_none (h : s.nextOwing = none) : exec .exchangeReportReady ⟨s, q⟩ = .next ⟨s, q⟩ := by
  simp [exec, execExchangeReportReady, Station.settled_of_acted ha, hready, hw, h]

theorem exec_exchangeReportReady_some {i : EntryIndex} (h : s.nextOwing = some i) :
    exec .exchangeReportReady ⟨s, q⟩ = .next ⟨{ s with exchange := { s.exchange with
      entries := s.exchange.entries.set i (s.entry i).reportMade, ready := (s.entry i).report, nextReport := i + 1 } },
      q⟩ := by
  simp only [exec, execExchangeReportReady, runEvent_eq, Station.settled_of_acted ha, hready, hw, h]
  rfl

end Reports

theorem Entry.reportMade_eq (e : Entry) : e.reportMade =
    if e.closing = true ∧ e.request = none then { round := e.round, state := .free } else { e with owed := none } := by
  simp only [Entry.reportMade, Bool.and_eq_true, Option.isNone_iff_eq_none]
  rfl

/-- Settles O48. -/
theorem owedReportsMadeReadyInTurn : Obligations.OwedReportsMadeReadyInTurn := by
  intro s ha q i o hready
  refine ⟨fun e rest hh hrun hloc hpool => ?_, fun hno => ?_⟩
  · exact exec_exchangeReportReady_isolated ha q (Station.isolatedReleaseWaits_iff.2 ⟨e, rest, hh, hrun, hloc, hpool⟩)
  have hw : s.isolatedReleaseWaits = false := by
    refine Bool.eq_false_iff.2 fun hw => ?_
    obtain ⟨e, rest, hh, hrun, hloc, hpool⟩ := Station.isolatedReleaseWaits_iff.1 hw
    exact (hno e rest hh hrun).elim hloc fun hne => hne hpool
  refine ⟨?_, fun h => exec_exchangeReportReady_none ha q hready hw (Station.nextOwing_eq_none h)⟩
  intro hi hfirst e r e'
  rw [exec_exchangeReportReady_some ha q hready hw (Station.nextOwing_eq_some hi hfirst), Entry.reportMade_eq,
    Entry.report, hi]
  cases o <;> rfl

end Sys2Proof.Machine
end

section
namespace Sys2Proof.Machine

/-! ### The cleanup toward a lost or restarted owner (R91, R92, Tables 4.8 and 4.9)

What the cleanup does to one entry is said by three functions of that entry alone: what it becomes, what becomes of its
slot, and the word that counts it. The cleanup of all entries is then read off entry by entry. -/

/-- An entry that a cleanup toward owner `p` acts on. -/
abbrev Entry.Toward (p : StationNo) (e : Entry) : Prop := e.state ≠ .free ∧ e.owner = p

/-- What the cleanup toward `p` makes of an entry. -/
def Entry.cleaned (restarted : Bool) (now : Tick) (p : StationNo) (e : Entry) : Entry :=
  if e.Toward p then (if restarted then e.afterRestart now else e.afterLoss) else e

/-- What it makes of the slot that the entry is bound to. -/
def Entry.slotCleaned (restarted : Bool) (p : StationNo) (e : Entry) (y : Slot) : Slot :=
  if e.Toward p then (e.cleansSlot restarted y).getD y else y

/-- The statistics word that counts it, if any. -/
def Entry.cleanWord (restarted : Bool) (p : StationNo) (e : Entry) : Option (Fin 24) :=
  if e.Toward p then e.cleanCounts restarted else none

/-- A statistics word advanced, or none. -/
def Station.countedIf (k : Option (Fin 24)) (s : Station) : Station := k.elim s s.counted

/-- The cleanup of one entry in those terms. -/
def Station.entryCleaned (restarted : Bool) (p : StationNo) (i : EntryIndex) (s : Station) : Station :=
  ((s.moveSlot (s.entry i).binding ((s.entry i).slotCleaned restarted p)).countedIf
    ((s.entry i).cleanWord restarted p)).setEntry i ((s.entry i).cleaned restarted s.clock.now p)

theorem Station.setEntry_self (i : EntryIndex) (s : Station) : s.setEntry i (s.entry i) = s := by
  simp [Station.setEntry, Station.entry]

theorem Entry.slotCleaned_none {r : Bool} {p : StationNo} {e : Entry} (h : ∀ y, e.cleansSlot r y = none) :
    e.slotCleaned r p = id := by
  funext y
  simp [Entry.slotCleaned, h]

theorem Entry.slotCleaned_some {r : Bool} {p : StationNo} {e : Entry} {f : Slot → Slot} (ht : e.Toward p)
    (h : ∀ y, e.cleansSlot r y = some (f y)) : e.slotCleaned r p = f := by
  funext y
  rw [Entry.slotCleaned, if_pos ht, h]
  rfl

section One
variable {s : Station} {i : EntryIndex} {p : StationNo} {r : Bool}

/-- An entry that the cleanup passes over. -/
theorem Station.entryCleaned_of_not_toward (h : ¬(s.entry i).Toward p) : s.entryCleaned r p i = s := by
  have hf : (s.entry i).slotCleaned r p = id := funext fun y => if_neg h
  rw [Station.entryCleaned, hf, Station.EntryWork.moveSlot_id, Entry.cleanWord, if_neg h, Entry.cleaned, if_neg h]
  exact Station.setEntry_self i s

variable (ht : (s.entry i).Toward p)
include ht

/-- A cleanup of the entry alone. -/
theorem Station.entryCleaned_alone {e' : Entry} (hf : ∀ y, (s.entry i).cleansSlot r y = none)
    (hc : (s.entry i).cleanCounts r = none)
    (he : (if r then (s.entry i).afterRestart s.clock.now else (s.entry i).afterLoss) = e') :
    s.entryCleaned r p i = s.setEntry i e' := by
  rw [Station.entryCleaned, Entry.slotCleaned_none hf, Station.EntryWork.moveSlot_id, Entry.cleanWord, if_pos ht, hc,
    Entry.cleaned, if_pos ht, he]
  rfl

/-- A cleanup of an entry and its slot. -/
theorem Station.entryCleaned_slot {e' : Entry} {f : Slot → Slot} (hf : ∀ y, (s.entry i).cleansSlot r y = some (f y))
    (hc : (s.entry i).cleanCounts r = none)
    (he : (if r then (s.entry i).afterRestart s.clock.now else (s.entry i).afterLoss) = e') :
    s.entryCleaned r p i = (s.moveSlot (s.entry i).binding f).setEntry i e' := by
  rw [Station.entryCleaned, Entry.slotCleaned_some ht hf, Entry.cleanWord, if_pos ht, hc, Entry.cleaned, if_pos ht, he]
  rfl

/-- A cleanup whose slot is stored unindexed. -/
theorem Station.entryCleaned_unindexed {e' : Entry} (x : Reason)
    (hf : ∀ y, (s.entry i).cleansSlot r y = some { y with state := .storing (some x) true })
    (hc : (s.entry i).cleanCounts r = some x.statsWord)
    (he : (if r then (s.entry i).afterRestart s.clock.now else (s.entry i).afterLoss) = e') :
    s.entryCleaned r p i = (s.storeUnindexed x (s.entry i).binding).setEntry i e' := by
  rw [Station.entryCleaned, Entry.slotCleaned_some ht hf, Entry.cleanWord, if_pos ht, hc, Entry.cleaned, if_pos ht, he,
    Station.storeUnindexed_eq]
  rfl

/-- A cleanup that counts the entry and leaves slots alone. -/
theorem Station.entryCleaned_counted {e' : Entry} {k : Fin 24} (hf : ∀ y, (s.entry i).cleansSlot r y = none)
    (hc : (s.entry i).cleanCounts r = some k)
    (he : (if r then (s.entry i).afterRestart s.clock.now else (s.entry i).afterLoss) = e') :
    s.entryCleaned r p i = (s.counted k).setEntry i e' := by
  rw [Station.entryCleaned, Entry.slotCleaned_none hf, Station.EntryWork.moveSlot_id, Entry.cleanWord, if_pos ht, hc,
    Entry.cleaned, if_pos ht, he]
  rfl

/-- A cleanup that finds nothing to do. -/
theorem Station.entryCleaned_still (hf : ∀ y, (s.entry i).cleansSlot r y = none) (hc : (s.entry i).cleanCounts r = none)
    (he : (if r then (s.entry i).afterRestart s.clock.now else (s.entry i).afterLoss) = s.entry i) :
    s.entryCleaned r p i = s := by
  rw [Station.entryCleaned_alone ht hf hc he, Station.setEntry_self]

/-- The Closing row of both tables. -/
theorem Station.entryCleaned_closing (hc : (s.entry i).closing = true) : s.entryCleaned r p i = s.cleanClosing i := by
  rw [Station.cleanClosing, Entry.release_eq]
  refine Station.entryCleaned_alone ht (fun y => ?_) ?_ ?_
  · simp [Entry.cleansSlot, hc]
  · simp [Entry.cleanCounts, hc]
  · cases r <;> simp [Entry.afterLoss, Entry.afterRestart, hc]

variable (hc : (s.entry i).closing = false)
include hc

/-- The ORPHAN rows of both tables. -/
theorem Station.entryCleaned_orphan {o : Origin} (hs : (s.entry i).state = .orphan o) : s.entryCleaned r p i =
    s.setEntry i (if o = .abortCommit then (s.entry i).owing (.doubt ((s.entry i).locator.getD 0))
      else (s.entry i).freedOrOwing) := by
  refine Station.entryCleaned_alone ht (fun y => by simp [Entry.cleansSlot, hs, hc]) (by simp [Entry.cleanCounts, hs, hc]) ?_
  cases r <;> cases o <;> simp [Entry.afterLoss, Entry.afterRestart, hs, hc]

/-- The ASKING and HOLDING rows of both tables. -/
theorem Station.entryCleaned_asking (hs : (s.entry i).state = .asking ∨ (s.entry i).state = .holding) :
    s.entryCleaned r p i = (s.storeUnindexed (if r then .ownerRestarted else .ownerAbsent) (s.entry i).binding).setEntry i
      (s.entry i).freedOrOwing := by
  refine Station.entryCleaned_unindexed ht _ (fun y => ?_) ?_ ?_
  · rcases hs with hs | hs <;> simp [Entry.cleansSlot, hs, hc]
  · rcases hs with hs | hs <;> cases r <;> simp [Entry.cleanCounts, hs, hc] <;> rfl
  · rcases hs with hs | hs <;> cases r <;> simp [Entry.afterLoss, Entry.afterRestart, hs, hc]

/-- A given-up RELEASE of Tables 4.8 and 4.9. -/
theorem Station.entryCleaned_givenUp {o : ReleasedOutcome} (hs : (s.entry i).state = .releasing)
    (hr : r = false ∧ o = (if (s.entry i).ackedOnce then .uncertain else .undelivered) ∨
      r = true ∧ (s.entry i).request = some (.release, .sent) ∧ o = .undelivered) :
    s.entryCleaned r p i = s.giveUp o i := by
  have hf (y : Slot) : (s.entry i).cleansSlot r y = none := by simp [Entry.cleansSlot, hs, hc]
  rw [Station.giveUp_eq]
  cases hk : (s.entry i).kind with
  | askExchange =>
    rw [Station.entryCleaned_still ht hf (by simp [Entry.cleanCounts, hs, hc, hk])]
    · simp [Station.releaseGivenUp, hk]
    · rcases hr with ⟨rfl, -⟩ | ⟨rfl, hq, -⟩
      · simp [Entry.afterLoss, hs, hc, hk]
      · simp [Entry.afterRestart, hs, hc, hk, hq]
  | hostRelease =>
    rw [Station.releaseGivenUp_hostRelease hk]
    refine Station.entryCleaned_alone ht hf (by simp [Entry.cleanCounts, hs, hc, hk]) ?_
    rcases hr with ⟨rfl, rfl⟩ | ⟨rfl, hq, rfl⟩
    · simp [Entry.afterLoss, hs, hc, hk]
    · simp [Entry.afterRestart, hs, hc, hk, hq]
  | compensation =>
    rw [Station.releaseGivenUp_compensation hk]
    rcases hr with ⟨rfl, rfl⟩ | ⟨rfl, hq, rfl⟩
    · exact Station.entryCleaned_counted ht hf (by simp [Entry.cleanCounts, hs, hc, hk])
        (by simp [Entry.afterLoss, hs, hc, hk])
    · exact Station.entryCleaned_counted ht hf (by simp [Entry.cleanCounts, hs, hc, hk, hq])
        (by simp [Entry.afterRestart, hs, hc, hk, hq])

/-- A COMMIT that was SENT, toward a restarted owner, is one failed attempt more (Table 4.9). -/
theorem Station.entryCleaned_committing (hs : (s.entry i).state = .committing)
    (hq : (s.entry i).request = some (.commit, .sent)) : s.entryCleaned true p i = s.attemptFailed i := by
  rw [Station.attemptFailed_eq]
  by_cases ha : (s.entry i).attempts < 3
  · rw [Station.exchangeFailed_again ha]
    refine Station.entryCleaned_alone ht (fun y => ?_) (by simp [Entry.cleanCounts, hs, hc]) ?_
    · simp [Entry.cleansSlot, hs, hc, Nat.not_le.2 ha]
    · simp [Entry.afterRestart, hs, hc, hq, ha]
  · rw [Station.exchangeFailed_committing ha hs]
    refine Station.entryCleaned_slot ht (fun y => ?_) (by simp [Entry.cleanCounts, hs, hc]) ?_
    · simp [Entry.cleansSlot, hs, hc, hq, Nat.le_of_not_lt ha]
    · simp [Entry.afterRestart, hs, hc, hq, ha]

end One

section Tables
variable {s : Station} {i : EntryIndex} {p : StationNo} (ht : (s.entry i).Toward p)
include ht

/-- Table 4.8. -/
theorem Station.cleanLost_eq : s.cleanLost i = s.entryCleaned false p i := by
  by_cases hc : (s.entry i).closing = true
  · rw [Station.entryCleaned_closing ht hc]
    exact if_pos hc
  replace hc : (s.entry i).closing = false := Bool.eq_false_iff.2 hc
  cases hs : (s.entry i).state with
  | free => exact absurd hs ht.1
  | asking | holding =>
    rw [Station.entryCleaned_asking ht hc (by simp [hs])]
    simp [Station.cleanLost, Entry.release_eq, hs, hc]
  | committing =>
    rw [Station.entryCleaned_slot ht (fun y => by simp only [Entry.cleansSlot, hs, hc]; rfl)
      (by simp [Entry.cleanCounts, hs, hc]) rfl]
    simp [Station.cleanLost, Entry.release_eq, Entry.afterLoss, hs, hc]
    rfl
  | storing | resolved =>
    rw [Station.entryCleaned_still ht (fun y => by simp [Entry.cleansSlot, hs, hc])
      (by simp [Entry.cleanCounts, hs, hc]) (by simp [Entry.afterLoss, hs, hc])]
    simp [Station.cleanLost, hs, hc]
  | releasing =>
    rw [Station.entryCleaned_givenUp ht hc hs (.inl ⟨rfl, rfl⟩)]
    simp [Station.cleanLost, hs, hc]
  | orphan o =>
    rw [Station.entryCleaned_orphan ht hc hs]
    cases o <;> simp only [Station.cleanLost, Entry.release_eq, hs, hc] <;> rfl

omit ht in
/-- A request on its way is that of the entry's state (Table 4.2). -/
theorem Entry.Sound.request_of_state {e : Entry} (h : e.Sound) (hc : e.closing = false) {k : RequestKind} {ph : Phase}
    (hr : e.request = some (k, ph)) : (e.state = .committing → k = .commit) ∧ (e.state = .releasing → k = .release) := by
  have hfits := h.request k ph hr
  cases k <;> simp_all [Entry.requestFits]

omit ht in
/-- A COMMITTING or RELEASING entry with nothing SENT is left as it is (Table 4.9). -/
theorem Station.cleanRestarted_unsent (hc : (s.entry i).closing = false)
    (hs : (s.entry i).state = .committing ∨ (s.entry i).state = .releasing)
    (hq : ∀ k, (s.entry i).request ≠ some (k, .sent)) : s.cleanRestarted i = s := by
  rcases hs with hs | hs <;> simp [Station.cleanRestarted, hs, hc]

/-- Table 4.9; that a COMMITTING entry sends COMMIT and a RELEASING one RELEASE is Table 4.2's. -/
theorem Station.cleanRestarted_eq (hsound : (s.entry i).Sound) : s.cleanRestarted i = s.entryCleaned true p i := by
  by_cases hc : (s.entry i).closing = true
  · rw [Station.entryCleaned_closing ht hc]
    exact if_pos hc
  replace hc : (s.entry i).closing = false := Bool.eq_false_iff.2 hc
  cases hs : (s.entry i).state with
  | free => exact absurd hs ht.1
  | asking | holding =>
    rw [Station.entryCleaned_asking ht hc (by simp [hs])]
    simp [Station.cleanRestarted, Entry.release_eq, hs, hc]
  | storing | resolved =>
    rw [Station.entryCleaned_still ht (fun y => by simp [Entry.cleansSlot, hs, hc])
      (by simp [Entry.cleanCounts, hs, hc]) (by simp [Entry.afterRestart, hs, hc])]
    simp [Station.cleanRestarted, hs, hc]
  | committing =>
    by_cases hq : (s.entry i).request = some (.commit, .sent)
    · rw [Station.entryCleaned_committing ht hc hs hq]
      simp [Station.cleanRestarted, hs, hc, hq, Station.sendFailed]
    · have hunsent (k : RequestKind) : (s.entry i).request ≠ some (k, .sent) := fun hk =>
        hq (by rw [hk, (hsound.request_of_state hc hk).1 hs])
      rw [Station.entryCleaned_still ht (fun y => by simp [Entry.cleansSlot, hs, hc, hq])
        (by simp [Entry.cleanCounts, hs, hc]) (by simp [Entry.afterRestart, hs, hc])]
      exact Station.cleanRestarted_unsent hc (.inl hs) hunsent
  | releasing =>
    by_cases hq : (s.entry i).request = some (.release, .sent)
    · rw [Station.entryCleaned_givenUp ht hc hs (.inr ⟨rfl, hq, rfl⟩)]
      simp [Station.cleanRestarted, hs, hc, hq, Station.sendFailed]
    · have hunsent (k : RequestKind) : (s.entry i).request ≠ some (k, .sent) := fun hk =>
        hq (by rw [hk, (hsound.request_of_state hc hk).2 hs])
      rw [Station.entryCleaned_still ht (fun y => by simp [Entry.cleansSlot, hs, hc])
        (by cases hk : (s.entry i).kind <;> simp [Entry.cleanCounts, hs, hc, hk, hq])
        (by simp [Entry.afterRestart, hs, hc, hq])]
      exact Station.cleanRestarted_unsent hc (.inr hs) hunsent
  | orphan o =>
    rw [Station.entryCleaned_orphan ht hc hs]
    cases o <;> simp only [Station.cleanRestarted, Entry.release_eq, hs, hc] <;> rfl

omit ht in
/-- The cleanup of one entry. -/
theorem Station.cleanEntry_eq (r : Bool) (hsound : (s.entry i).Sound) : s.cleanEntry r p i = s.entryCleaned r p i := by
  have htest : ((s.entry i).live && (s.entry i).owner == p) = true ↔ (s.entry i).Toward p := by
    simp [Entry.live, Entry.Toward]
  rw [Station.cleanEntry]
  split
  next h =>
    cases r with
    | true => exact Station.cleanRestarted_eq (htest.1 h) hsound
    | false => exact Station.cleanLost_eq (htest.1 h)
  next h => exact (Station.entryCleaned_of_not_toward (mt htest.2 h)).symm

end Tables

end Sys2Proof.Machine
end

section
namespace Sys2Proof.Machine

/-! #### The cleanup of all entries -/

/-- What the cleanup of entries `is`, in their order, makes of a slot of lane `l`; `x` gives the entries as they stood. -/
def slotAfterCleanup (restarted : Bool) (p : StationNo) (x : EntryIndex → Entry) (l : LaneNo) (is : List EntryIndex)
    (y : Slot) : Slot :=
  is.foldl (fun y i => if (x i).binding = some ⟨l, y.seq⟩ then (x i).slotCleaned restarted p y else y) y

/-- The station `t` is `u` with the entries `is` cleaned up. -/
structure EntriesCleaned (restarted : Bool) (p : StationNo) (x : EntryIndex → Entry) (is : List EntryIndex)
    (u t : Station) : Prop where
  entries : ∀ i, t.entry i = if i ∈ is then (x i).cleaned restarted u.clock.now p else u.entry i
  lanes : ∀ l, t.laneAt l =
    { u.laneAt l with window := (u.laneAt l).window.map (slotAfterCleanup restarted p x l is) }
  counters : ∀ k : Fin 24, t.control.counters[k] = u.control.counters[k] +
    BitVec.ofNat 32 (is.countP fun i => (x i).cleanWord restarted p = some k)
  rest : t = { u with
    lane.lanes := t.lane.lanes, exchange.entries := t.exchange.entries, control.counters := t.control.counters }

section Update
variable (r : Bool) (p : StationNo) (i : EntryIndex) (u : Station)

theorem Station.countedIf_blocks (k : Option (Fin 24)) : (u.countedIf k).exchange = u.exchange ∧
    (u.countedIf k).lane = u.lane := by
  cases k <;> exact ⟨rfl, rfl⟩

theorem Station.countedIf_counters (k : Option (Fin 24)) (m : Fin 24) : (u.countedIf k).control.counters[m] =
    u.control.counters[m] + BitVec.ofNat 32 (if k = some m then 1 else 0) := by
  cases k with
  | none => simp [Station.countedIf]
  | some k =>
    by_cases h : k = m
    · subst h
      simp [Station.countedIf, Station.counted]
    · have hne : k.val ≠ m.val := fun hv => h (Fin.ext hv)
      simp [Station.countedIf, Station.counted, h, hne]

theorem Station.laneAt_moveSlot (b : Option Binding) (f : Slot → Slot) (l : LaneNo) : (u.moveSlot b f).laneAt l =
    { u.laneAt l with window := (u.laneAt l).window.map fun y => if b = some ⟨l, y.seq⟩ then f y else y } := by
  cases b with
  | none => simp [Station.moveSlot]
  | some b =>
    obtain ⟨m, n⟩ := b
    rw [Station.moveSlot, Station.laneAt_mapLane]
    by_cases h : m = l
    · subst h
      simp [Lane.mapSlot, eq_comm]
    · simp [h]

theorem Station.entryCleaned_entry (j : EntryIndex) : (u.entryCleaned r p i).entry j =
    if i = j then (u.entry i).cleaned r u.clock.now p else u.entry j := by
  rw [Station.entryCleaned, Station.entry_setEntry]
  simp [Station.entry, Station.countedIf_blocks]

theorem Station.entryCleaned_laneAt (l : LaneNo) : (u.entryCleaned r p i).laneAt l =
    { u.laneAt l with window := (u.laneAt l).window.map fun y =>
        if (u.entry i).binding = some ⟨l, y.seq⟩ then (u.entry i).slotCleaned r p y else y } := by
  rw [← Station.laneAt_moveSlot]
  simp [Station.entryCleaned, Station.laneAt, Station.countedIf_blocks]

theorem Station.entryCleaned_counters (k : Fin 24) : (u.entryCleaned r p i).control.counters[k] =
    u.control.counters[k] + BitVec.ofNat 32 (if (u.entry i).cleanWord r p = some k then 1 else 0) := by
  simp only [Station.entryCleaned, Station.setEntry_blocks, Station.countedIf_counters, Station.moveSlot_blocks]

theorem Station.entryCleaned_rest : u.entryCleaned r p i = { u with
    lane.lanes := (u.entryCleaned r p i).lane.lanes
    exchange.entries := (u.entryCleaned r p i).exchange.entries
    control.counters := (u.entryCleaned r p i).control.counters } := by
  unfold Station.entryCleaned
  cases (u.entry i).binding <;> cases (u.entry i).cleanWord r p <;> rfl

end Update

section All
variable {r : Bool} {p : StationNo} {x : EntryIndex → Entry}

theorem EntriesCleaned.nil (u : Station) : EntriesCleaned r p x [] u u where
  entries i := rfl
  lanes l := by
    have hid : slotAfterCleanup r p x l [] = id := rfl
    rw [hid, List.map_id]
  counters k := by simp
  rest := rfl

/-- One entry more, cleaned up before the others. -/
theorem EntriesCleaned.cons {i : EntryIndex} {is : List EntryIndex} {u t : Station} (hx : u.entry i = x i)
    (hi : i ∉ is) (h : EntriesCleaned r p x is (u.entryCleaned r p i) t) : EntriesCleaned r p x (i :: is) u t where
  entries j := by
    have hnow : (u.entryCleaned r p i).clock = u.clock := by rw [Station.entryCleaned_rest]
    rw [h.entries, hnow, Station.entryCleaned_entry, hx]
    by_cases hj : i = j
    · subst hj
      simp [hi]
    · simp [hj, Ne.symm hj]
  lanes l := by
    rw [h.lanes, Station.entryCleaned_laneAt, List.map_map, hx]
    rfl
  counters k := by
    rw [h.counters, Station.entryCleaned_counters, hx, List.countP_cons, BitVec.add_assoc, ← BitVec.ofNat_add,
      Nat.add_comm]
    simp only [decide_eq_true_eq]
  rest := by
    conv_lhs => rw [h.rest, Station.entryCleaned_rest]

theorem cleanEntries_cleaned {is : List EntryIndex} (hd : is.Nodup) {u : Station} (hx : ∀ i ∈ is, u.entry i = x i)
    (hs : ∀ i ∈ is, (x i).Sound) : EntriesCleaned r p x is u (is.foldl (Station.cleanEntry r p) u) := by
  induction is generalizing u with
  | nil => exact .nil u
  | cons i is ih =>
    obtain ⟨hi, hd⟩ := List.nodup_cons.1 hd
    rw [List.foldl_cons, Station.cleanEntry_eq r (by rw [hx i List.mem_cons_self]; exact hs i List.mem_cons_self)]
    refine .cons (hx i List.mem_cons_self) hi (ih hd (fun j hj => ?_) fun j hj => hs j (List.mem_cons_of_mem _ hj))
    rw [Station.entryCleaned_entry, if_neg fun h : i = j => hi (by rwa [h]), hx j (List.mem_cons_of_mem _ hj)]

end All

theorem Station.EntriesSound.cleanExchange_cleaned {s : Station} (h : s.EntriesSound) (r : Bool) (p : StationNo) :
    EntriesCleaned r p s.entry (List.finRange 256) s (s.cleanExchange r p) :=
  cleanEntries_cleaned (List.nodup_finRange 256) (fun _ _ => rfl) fun i _ => h i

/-! #### The slots, one by one -/

section Slots
variable {r : Bool} {p : StationNo} {x : EntryIndex → Entry} {l : LaneNo}

theorem Entry.cleansSlot_seq {e : Entry} {y z : Slot} (h : e.cleansSlot r y = some z) : z.seq = y.seq := by
  unfold Entry.cleansSlot at h
  (repeat' split at h) <;> cases h <;> rfl

theorem Entry.slotCleaned_seq (e : Entry) (y : Slot) : (e.slotCleaned r p y).seq = y.seq := by
  unfold Entry.slotCleaned
  split
  · cases h : e.cleansSlot r y with
    | none => rfl
    | some z => exact Entry.cleansSlot_seq h
  · rfl

/-- A slot that no entry acted on is bound to stays. -/
theorem slotAfterCleanup_unbound {is : List EntryIndex} {y : Slot}
    (h : ∀ i ∈ is, (x i).Toward p → (x i).binding ≠ some ⟨l, y.seq⟩) : slotAfterCleanup r p x l is y = y := by
  induction is with
  | nil => rfl
  | cons i is ih =>
    have hstep : (if (x i).binding = some ⟨l, y.seq⟩ then (x i).slotCleaned r p y else y) = y := by
      split
      next hb => exact if_neg fun ht => h i List.mem_cons_self ht hb
      next => rfl
    rw [slotAfterCleanup, List.foldl_cons, hstep]
    exact ih fun j hj => h j (List.mem_cons_of_mem _ hj)

/-- A slot that one entry acted on is bound to is cleaned with it, once. -/
theorem slotAfterCleanup_bound {is : List EntryIndex} (hd : is.Nodup) {i : EntryIndex} (hi : i ∈ is) {y : Slot}
    (hb : (x i).binding = some ⟨l, y.seq⟩)
    (honly : ∀ j ∈ is, (x j).Toward p → (x j).binding = some ⟨l, y.seq⟩ → j = i) :
    slotAfterCleanup r p x l is y = (x i).slotCleaned r p y := by
  induction is with
  | nil => cases hi
  | cons j is ih =>
    obtain ⟨hj, hd⟩ := List.nodup_cons.1 hd
    have htail (k : EntryIndex) (hk : k ∈ is) := honly k (List.mem_cons_of_mem _ hk)
    rw [slotAfterCleanup, List.foldl_cons]
    rcases List.mem_cons.1 hi with rfl | hi
    · rw [if_pos hb]
      refine slotAfterCleanup_unbound fun k hk ht hkb => hj ?_
      rw [Entry.slotCleaned_seq] at hkb
      exact htail k hk ht hkb ▸ hk
    · have hstep : (if (x j).binding = some ⟨l, y.seq⟩ then (x j).slotCleaned r p y else y) = y := by
        split
        next hjb => exact if_neg fun ht => hj (honly j List.mem_cons_self ht hjb ▸ hi)
        next => rfl
      rw [hstep]
      exact ih hd hi htail

end Slots

/-! #### The orders of a loss or a restart (R91, R92, R149, R150, R156, R158) -/

/-- A purge, as the statements give it. -/
theorem txPurge_eq (p : StationNo) (q : List TxFrame) : txPurge p q = q.filterMap fun f =>
    if f.frame.dest ≠ p then some f
    else match f.mark with
      | .waiting => none
      | .onLine | .onLinePurged => some { f with mark := .onLinePurged } := by
  refine List.filterMap_congr fun f _ => ?_
  by_cases hp : f.frame.dest = p
  · cases f.mark <;> simp [hp]
  · simp [hp]

/-- The PEER item joins at once where the queue has a place and no source waits (R156). -/
def Station.TakesPeerItem (s : Station) : Prop :=
  s.index.queue.length < 32 ∧ s.bus.inboundWaits = false ∧ s.roster.held = none ∧ s.pathWaits .self = false

theorem Station.takesPeerItem_iff {s : Station} : (s.workRoom && !s.anyWaits) = true ↔ s.TakesPeerItem := by
  have hroom : s.workRoom = true ↔ s.index.queue.length < 32 := decide_eq_true_iff
  have hwaits : s.anyWaits = false ↔
      (s.bus.inboundWaits = false ∧ s.pathWaits .self = false) ∧ s.roster.held = none := by
    simp [Station.anyWaits, Station.sourceWaits]
  rw [Bool.and_eq_true, Bool.not_eq_true', hroom, hwaits, Station.TakesPeerItem]
  tauto

theorem Station.offerPeerItem_joins {s : Station} (h : s.TakesPeerItem) (x : WorkItem) : s.offerPeerItem x = s.workPush x :=
  if_pos (Station.takesPeerItem_iff.2 h)

theorem Station.offerPeerItem_held {s : Station} (h : ¬s.TakesPeerItem) (x : WorkItem) :
    s.offerPeerItem x = { s with roster.held := some x } :=
  if_neg (mt Station.takesPeerItem_iff.1 h)

/-- Whether the exchange unit waits does not depend on the item. -/
theorem Station.offerPeerItem_pathWaits (x : WorkItem) (s : Station) :
    (s.offerPeerItem x).pathWaits .self = s.pathWaits .self := by
  unfold Station.offerPeerItem
  split <;> rfl

theorem Station.offerPeerItem_rest (x : WorkItem) (s : Station) : s.offerPeerItem x = { s with
    index.queue := (s.offerPeerItem x).index.queue, roster := (s.offerPeerItem x).roster } := by
  unfold Station.offerPeerItem
  split <;> rfl

theorem cleanWord_filter (r : Bool) (p : StationNo) (x : EntryIndex → Entry) (k : Fin 24) :
    ((List.finRange 256).countP fun i => (x i).cleanWord r p = some k) =
      ((List.finRange 256).filter fun i => decide ((x i).state ≠ .free) && decide ((x i).owner = p) &&
        decide ((x i).cleanCounts r = some k)).length := by
  rw [List.countP_eq_length_filter]
  congr 2
  funext i
  by_cases h : (x i).Toward p
  · simp [Entry.cleanWord, h]
  · rw [Entry.cleanWord, if_neg h, ← Bool.decide_and, decide_eq_false h]
    rfl

/-- The model's orders are those of the statements. -/
theorem Station.EntriesSound.peerCleaned {s : Station} (h : s.EntriesSound) (r : Bool) (p : StationNo) :
    s.PeerCleaned (s.cleanupPeer r p) r p := by
  have hclean := h.cleanExchange_cleaned r p
  generalize hu : s.cleanExchange r p = u at hclean
  have hbus : (s.cleanExchange r p).bus = s.bus := by simp
  have hindex : (s.cleanExchange r p).index = s.index := by simp
  have hroster : (s.cleanExchange r p).roster = s.roster := by simp
  rw [hu] at hbus hindex hroster
  generalize hx : (if r then WorkItem.peerRestarted p else .peerLost p) = x
  have ht : s.cleanupPeer r p = (u.purge p).offerPeerItem x := by rw [Station.cleanupPeer, hu, hx]
  have hexchange : (s.cleanupPeer r p).exchange = u.exchange := by rw [ht]; simp
  have hlane : (s.cleanupPeer r p).lane = u.lane := by rw [ht]; simp
  have hcontrol : (s.cleanupPeer r p).control = u.control := by rw [ht]; simp
  have hmap (l : LaneNo) : (s.cleanupPeer r p).laneAt l = u.laneAt l := by rw [Station.laneAt, hlane, Station.laneAt]
  constructor
  case entries =>
    intro i
    rw [Station.entry, hexchange]
    exact (hclean.entries i).trans (if_pos (List.mem_finRange i))
  case lanes =>
    intro l
    rw [hmap, hclean.lanes]
    exact ⟨rfl, List.length_map ..⟩
  case slots =>
    intro l k y hy
    rw [hmap, hclean.lanes, List.getElem?_map, hy]
    refine ⟨fun hno => ?_, fun i ht hb honly => ?_⟩
    · exact congrArg some (slotAfterCleanup_unbound fun i _ ht => hno i ht)
    · refine congrArg some ?_
      rw [slotAfterCleanup_bound (List.nodup_finRange 256) (List.mem_finRange i) hb fun j _ ht hjb => honly j ht hjb]
      exact if_pos ht
  case counters =>
    intro k
    rw [hcontrol, hclean.counters, cleanWord_filter]
  case transmit =>
    have htx : (s.cleanupPeer r p).bus.tx = txPurge p s.bus.tx := by
      rw [ht, Station.offerPeerItem_rest, ← hbus]
      rfl
    exact htx.trans (txPurge_eq p _)
  case item =>
    have hiff : (s.index.queue.length < 32 ∧ s.bus.inboundWaits = false ∧ s.roster.held = none ∧
        (s.cleanupPeer r p).pathWaits .self = false) ↔ (u.purge p).TakesPeerItem := by
      rw [ht, Station.offerPeerItem_pathWaits, ← hindex, ← hbus, ← hroster]
      rfl
    rw [hx]
    split
    next hc =>
      rw [ht, Station.offerPeerItem_joins (hiff.1 hc)]
      exact ⟨congrArg (fun o : IndexUnit => o.queue ++ [x]) hindex, hroster⟩
    next hc =>
      rw [ht, Station.offerPeerItem_held (mt hiff.2 hc)]
      exact ⟨congrArg (·.queue) hindex, congrArg (fun o => { o with held := some x }) hroster⟩
  case rest =>
    rw [ht, Station.offerPeerItem_rest, Station.purge, hclean.rest]

end Sys2Proof.Machine
end

section
namespace Sys2Proof.Machine

/-! ### The duties of the roster (R154, R155, R156, R157, R158, R159) -/

theorem Station.peer_peerNo (n : Fin 15) (s : Station) : s.peer (peerNo n) = s.roster.peers[n] := by
  simp [Station.peer, peerNo_toNat]

theorem Station.setPeer_peerNo (n : Fin 15) (r : Peer) (s : Station) :
    s.setPeer (peerNo n) r = { s with roster.peers := s.roster.peers.set n r } := by
  have hset : s.roster.peers.setIfInBounds (peerNo n).toNat r = s.roster.peers.set n r := by
    rw [peerNo_toNat]
    exact Vector.ext fun i hi => by simp [Vector.getElem_setIfInBounds, Vector.getElem_set]
  rw [Station.setPeer, hset]

theorem Station.rosterFree_iff {s : Station} : s.rosterFree = true ↔ s.roster.ready = none ∧ s.roster.held = none := by
  simp [Station.rosterFree]

section Duties
variable {s : Station} {n : Fin 15}

theorem Station.TakesChange.changeDuty_eq (h : s.TakesChange n) : s.changeDuty = some n := by
  have hnext : s.nextChange = some n := by
    refine ringFind_eq_some.2 ⟨?_, fun k hk => ?_⟩
    · rw [Station.peer_peerNo, Bool.or_eq_true]
      exact h.marked
    · obtain ⟨hheard, hsilence⟩ := h.first (s.roster.next + k) (by rwa [add_sub_cancel_left])
      rw [Station.peer_peerNo, hheard, hsilence]
      rfl
  rw [Station.changeDuty, if_pos, hnext]
  simp [Station.rosterFree, h.ready, h.held, h.conflict]

variable (ha : s.DeadlinesActed) (q : List Instr)
include ha

theorem exec_peerJoin_duty (h : s.TakesChange n) (hm : s.roster.peers[n].heard = true) :
    exec .peerJoin ⟨s, q⟩ = .next ⟨{ s with roster.next := n + 1 }.joinPeer (peerNo n), q⟩ := by
  simp only [exec, execPeerJoin, runEvent_eq, Station.settled_of_acted ha, h.changeDuty_eq, Station.peer_peerNo, hm, if_true]

theorem exec_peerSilent_duty (h : s.TakesChange n) (hm : s.roster.peers[n].heard = false) :
    exec .peerSilent ⟨s, q⟩ = .next ⟨{ s with roster.next := n + 1 }.silencePeer (peerNo n), q⟩ := by
  simp only [exec, execPeerSilent, runEvent_eq, Station.settled_of_acted ha, h.changeDuty_eq, Station.peer_peerNo, hm,
    Bool.false_eq_true, if_false]

theorem exec_conflictReport_none (h : s.roster.conflictOwed = none) : exec .conflictReport ⟨s, q⟩ = .next ⟨s, q⟩ := by
  simp only [exec, execConflictReport, runEvent_eq, Station.settled_of_acted ha, h]

theorem exec_conflictReport_duty (hf : s.rosterFree = true) {c : OwedConflict} (h : s.roster.conflictOwed = some c) :
    exec .conflictReport ⟨s, q⟩ = .next ⟨{ s with roster := { s.roster with
      conflictOwed := none, conflictFlag := true
      ready := some (match c with
        | .ownNumber => .peer .conflictOwnNumber s.own
        | .clusterSize p size => .peer (.conflictClusterSize size) p) } }, q⟩ := by
  simp only [exec, execConflictReport, runEvent_eq, Station.settled_of_acted ha, h, hf, if_true]
  cases c <;> rfl

end Duties

/-- Settles O54. -/
theorem rosterChangesInTurn : Obligations.RosterChangesInTurn := by
  refine ⟨fun s ha q n h hm => ?_, ?_, fun s ha q hr hh => ?_⟩
  · rw [exec_peerJoin_duty ha q h hm, Station.joinPeer, Station.setPeer_peerNo, Station.peer_peerNo]
    rfl
  · intro s ha q n h hm hs u
    have hsound : u.EntriesSound := hs
    have hsilenced : { s with roster.next := n + 1 }.silencePeer (peerNo n) =
        (u.cleanupPeer false (peerNo n)).reportPeer .silent (peerNo n) := by
      rw [Station.silencePeer, Station.peer_peerNo, Station.setPeer_peerNo]
    refine ⟨u.cleanupPeer false (peerNo n), hsound.peerCleaned false _, ?_⟩
    rw [exec_peerSilent_duty ha q h hm, hsilenced]
    rfl
  · have hf : s.rosterFree = true := Station.rosterFree_iff.2 ⟨hr, hh⟩
    exact ⟨exec_conflictReport_none ha q, exec_conflictReport_duty ha q hf, fun p size => exec_conflictReport_duty ha q hf⟩

/-! ### Beacons -/

section Beacons
variable {s : Station} {f : Frame} {fs : List Frame} {fresh : Bool} {size : BitVec 4}

theorem Station.TakesBeacon.takeBeacon_eq (h : s.TakesBeacon f fs fresh size) :
    s.takeBeacon = (s.inboundTaken fs).decideBeacon f.sender fresh size := by
  have hno : s.nextChange = none := ringFind_eq_none.2 fun n => by
    obtain ⟨hheard, hsilence⟩ := h.unmarked n
    rw [Station.peer_peerNo, hheard, hsilence]
    rfl
  have hc : (s.rosterFree && s.roster.conflictOwed.isNone && s.nextChange.isNone) = true := by
    rw [Station.rosterFree_iff.2 ⟨h.ready, h.held⟩, h.conflict, hno]
    rfl
  simp only [Station.takeBeacon, h.head, h.body, hc, if_true]
  rfl

theorem exec_beaconTaken_eq (ha : s.DeadlinesActed) (q : List Instr) :
    exec .beaconTaken ⟨s, q⟩ = .next ⟨s.takeBeacon, q⟩ := runEvent_acted _ ha q

/-- A beacon at the inbound head is dispatched to the roster (R154, R157). -/
theorem exec_inboundDispatch_beacon (ha : s.DeadlinesActed) (q : List Instr) (hh : s.bus.inbound = f :: fs)
    (hb : f.body = .beacon fresh size) : exec .inboundDispatch ⟨s, q⟩ = .next ⟨s.takeBeacon, q⟩ := by
  simp only [exec, execInboundDispatch, runEvent_eq, Station.settled_of_acted ha, hh, hb]

theorem Station.decideBeacon_conflict {p : StationNo} (hz : size ≠ s.control.straps.clusterSize) :
    s.decideBeacon p fresh size = (s.counted 22).conflictFound (.clusterSize p size) := by
  refine (if_pos hz).trans ?_
  rw [Roster.oweConflict_eq]
  rfl

variable {p : StationNo} (hz : size = s.control.straps.clusterSize)
include hz

theorem Station.decideBeacon_unheeded (hp : (s.peer p).state ≠ .serving) : s.decideBeacon p fresh size = s :=
  (if_neg (not_not_intro hz)).trans (if_pos hp)

variable (hp : (s.peer p).state = .serving)
include hp

theorem Station.decideBeacon_first (hb : (s.peer p).beaconSeen = false) :
    s.decideBeacon p fresh size = s.setPeer p { s.peer p with beaconSeen := true } := by
  simp only [Station.decideBeacon, hz, hp, hb, not_true, ne_eq, if_false, Bool.not_false, if_true]

theorem Station.decideBeacon_later (hb : (s.peer p).beaconSeen = true) : s.decideBeacon p fresh size =
    if fresh then (s.cleanupPeer true p).reportPeer .restarted p else s := by
  simp only [Station.decideBeacon, hz, hp, hb, not_true, ne_eq, if_false, Bool.not_true, Bool.false_eq_true]

end Beacons

/-- Settles O55. -/
theorem beaconsTakenByTheRoster : Obligations.BeaconsTakenByTheRoster := by
  intro s ha q f fs fresh size h t r leads
  have hleads {t' : Station} (ht : t.decideBeacon f.sender fresh size = t') : leads t' := by
    change exec .beaconTaken ⟨s, q⟩ = .next ⟨t', q⟩
    rw [exec_beaconTaken_eq ha q, h.takeBeacon_eq, ht]
  refine ⟨?_, fun hz => ?_, fun hz hp => ?_, fun hz hp hb => ?_, fun hz hp hb hf => ?_, fun hz hp hb hf hs => ?_⟩
  · rw [exec_inboundDispatch_beacon ha q h.head h.body, exec_beaconTaken_eq ha q]
  · exact hleads (Station.decideBeacon_conflict (s := t) hz)
  · exact hleads (Station.decideBeacon_unheeded (s := t) hz hp)
  · exact hleads (Station.decideBeacon_first (s := t) hz hp hb)
  · exact hleads ((Station.decideBeacon_later (s := t) hz hp hb).trans (if_neg (by simp [hf])))
  · have hsound : t.EntriesSound := hs
    refine ⟨t.cleanupPeer true f.sender, hsound.peerCleaned true _, ?_⟩
    exact hleads ((Station.decideBeacon_later (s := t) hz hp hb).trans (if_pos hf))

end Sys2Proof.Machine
end

section
namespace Sys2Proof.Machine

/-! ### Slots and what claims them (R63, R69, R108, R115, R122)

A slot is claimed by the digest FIFO or the engine while it is DIGESTING, by the tag wait queue while it is in LOOKUP, and
by the entry bound to it afterwards. In sound lanes the numbers of a window are distinct, so that a slot has one state and
at most one claim; each operation then takes a claim, moves a slot that nothing claims, or gives a claim. -/

/-- A state of a slot that matches the state of the entry bound to the slot. -/
def SlotState.fits (x : SlotState) (e : EntryState) : Prop := Slot.matches ⟨0, 0, 0, none, none, x⟩ e

theorem Slot.matches_iff {y : Slot} {e : EntryState} : y.matches e ↔ y.state.fits e := by
  cases e <;> rfl

/-- A slot's state but for the STORE owed marker, which no claim looks at. -/
def SlotState.view : SlotState → SlotState
  | .storing u _ => .storing u false
  | x => x

theorem SlotState.view_fits (x : SlotState) (e : EntryState) : x.view.fits e ↔ x.fits e := by
  cases x with
  | storing u o => cases e <;> simp [SlotState.view, SlotState.fits, Slot.matches]
  | _ => rfl

theorem SlotState.fits_of_view {x x' : SlotState} (hv : x'.view = x.view) {e : EntryState} (h : x.fits e) : x'.fits e := by
  rw [← SlotState.view_fits, hv, SlotState.view_fits]
  exact h

/-- A slot that an entry works on is neither FILLING, nor DIGESTING, nor in LOOKUP, nor unindexed. -/
theorem SlotState.not_fits {x : SlotState} (hx : x = .filling ∨ x = .digesting ∨ x = .lookup ∨
    (∃ r o, x = .storing (some r) o)) (e : EntryState) : ¬x.fits e := by
  rcases hx with rfl | rfl | rfl | ⟨r, o, rfl⟩ <;> cases e <;> simp [SlotState.fits, Slot.matches]

/-- Nothing works on the slot: no chunk of the digest FIFO or the engine, no lookup, no entry. -/
structure Station.Unclaimed (s : Station) (b : Binding) : Prop where
  digest : (b.lane, b.seq) ∉ s.chunker.inDigest
  lookup : (b.lane, b.seq) ∉ s.exchange.inLookup
  bound : ∀ i, (s.entry i).binding ≠ some b

/-- Sound lanes whose slots are matched. -/
structure Station.SlotsAgree (s : Station) : Prop where
  lanes : s.LanesSound
  slots : s.SlotsMatched

/-- In stream order, two slots of a window have different numbers (R115). -/
theorem Lane.WindowSound.slot_unique {l : Lane} (h : l.WindowSound) (hlen : l.window.length ≤ 64) {y z : Slot}
    (hy : y ∈ l.window) (hz : z ∈ l.window) (hs : y.seq = z.seq) : y = z := by
  obtain ⟨i, hi⟩ := List.mem_iff_getElem?.1 hy
  obtain ⟨j, hj⟩ := List.mem_iff_getElem?.1 hz
  have hil := (List.getElem?_eq_some_iff.1 hi).1
  have hjl := (List.getElem?_eq_some_iff.1 hj).1
  rw [h.numbered i y hi, h.numbered j z hj, sub_right_inj, ← BitVec.toNat_inj, BitVec.toNat_ofNat, BitVec.toNat_ofNat] at hs
  have hij : i = j := by omega
  subst hij
  exact Option.some.inj (hi.symm.trans hj)

/-- No slot of a window has the number just before it. -/
theorem Lane.WindowSound.not_before {l : Lane} (h : l.WindowSound) (hlen : l.window.length ≤ 64) {y : Slot}
    (hy : y ∈ l.window) : y.seq ≠ l.record.nextRecipe - BitVec.ofNat 32 (l.window.length + 1) := by
  obtain ⟨i, hi⟩ := List.mem_iff_getElem?.1 hy
  have hil := (List.getElem?_eq_some_iff.1 hi).1
  rw [h.numbered i y hi, ne_eq, sub_right_inj, ← BitVec.toNat_inj, BitVec.toNat_ofNat, BitVec.toNat_ofNat]
  omega

namespace Station.SlotsAgree
variable {s t : Station} (h : s.SlotsAgree)
include h

theorem mem_unique {l : LaneNo} {y z : Slot} (hy : y ∈ (s.laneAt l).window) (hz : z ∈ (s.laneAt l).window)
    (hs : y.seq = z.seq) : y = z :=
  (h.lanes l).window.slot_unique (h.slots.windows l) hy hz hs

/-- A slot has one state. -/
theorem hasSlot_unique {l : LaneNo} {q : Word} {x y : SlotState} (hx : s.hasSlot l q x) (hy : s.hasSlot l q y) : x = y := by
  obtain ⟨u, hu, huq, rfl⟩ := hx
  obtain ⟨v, hv, hvq, rfl⟩ := hy
  rw [h.mem_unique hu hv (huq.trans hvq.symm)]

/-- The slot of a RECIPE not yet appended has left its window (R122). -/
theorem not_hasSlot_of_held {b : Binding} (hb : s.recipeHeld b) (x : SlotState) : ¬s.hasSlot b.lane b.seq x := by
  rintro ⟨y, hy, hq, -⟩
  rcases h.slots.held b hb with ha | ⟨-, hseq⟩
  · have hnil := h.slots.free b.lane ((h.lanes b.lane).abortFree ha)
    rw [hnil] at hy
    cases hy
  · exact (h.lanes b.lane).window.not_before (h.slots.windows b.lane) hy (hq.trans hseq)

theorem bound_cases {i : EntryIndex} {b : Binding} (hb : (s.entry i).binding = some b) :
    (∃ x, s.hasSlot b.lane b.seq x ∧ x.fits (s.entry i).state) ∨ (s.entry i).state = .resolved ∧ s.recipeHeld b :=
  (h.slots.bound i b hb).imp_left fun ⟨y, hy, hq, hm⟩ => ⟨y.state, ⟨y, hy, hq, rfl⟩, Slot.matches_iff.1 hm⟩

theorem bound_fits {i : EntryIndex} {b : Binding} (hb : (s.entry i).binding = some b) {x : SlotState}
    (hx : s.hasSlot b.lane b.seq x) : x.fits (s.entry i).state := by
  rcases h.bound_cases hb with ⟨y, hy, hf⟩ | ⟨-, hheld⟩
  · rwa [h.hasSlot_unique hx hy]
  · exact absurd hx (h.not_hasSlot_of_held hheld x)

/-- A slot that no entry can work on is claimed only as a chunk or as a lookup. -/
theorem unclaimed {b : Binding} {x : SlotState} (hx : s.hasSlot b.lane b.seq x)
    (hd : x = .digesting → (b.lane, b.seq) ∉ s.chunker.inDigest)
    (hl : x = .lookup → (b.lane, b.seq) ∉ s.exchange.inLookup)
    (hb : ∀ i, (s.entry i).binding = some b → ¬x.fits (s.entry i).state) : s.Unclaimed b where
  digest hm := hd (h.hasSlot_unique hx (h.slots.digests.2 _ hm)) hm
  lookup hm := hl (h.hasSlot_unique hx (h.slots.lookups.2 _ hm)) hm
  bound i hi := hb i hi (h.bound_fits hi hx)

end Station.SlotsAgree

end Sys2Proof.Machine
end

section
namespace Sys2Proof.Machine

/-! #### Claims given up and taken -/

theorem SlotState.eq_of_view {x x' : SlotState} (hv : x'.view = x.view) (hx : ∀ u o, x ≠ .storing u o) : x' = x := by
  cases x with
  | storing u o => exact absurd rfl (hx u o)
  | _ =>
    cases x' <;> cases hv
    rfl

/-- The lanes and the held report are as they were, and nothing claims a slot that did not before. -/
structure Station.ClaimsLess (s t : Station) : Prop where
  lane : t.lane = s.lane
  burst : ∀ b, t.chunker.burst = some b → b.void = false → s.chunker.burst = some b
  digests : t.chunker.inDigest.Subperm s.chunker.inDigest
  lookups : t.exchange.inLookup.Sublist s.exchange.inLookup
  entries : ∀ i b, (t.entry i).binding = some b → (s.entry i).binding = some b ∧ (t.entry i).state = (s.entry i).state

section Readings
variable {s t : Station}

theorem Station.laneAt_of_lane (h : t.lane = s.lane) (l : LaneNo) : t.laneAt l = s.laneAt l := by
  rw [Station.laneAt, h, Station.laneAt]

theorem Station.entry_of_entries (h : t.exchange.entries = s.exchange.entries) (i : EntryIndex) :
    t.entry i = s.entry i := by
  rw [Station.entry, h, Station.entry]

theorem Station.hasSlot_of_lane (h : t.lane = s.lane) {l : LaneNo} {q : Word} {x : SlotState} :
    t.hasSlot l q x ↔ s.hasSlot l q x := by
  rw [Station.hasSlot, Station.laneAt_of_lane h, Station.hasSlot]

theorem Station.recipeHeld_of_ready (h : t.lane.ready = s.lane.ready) {b : Binding} : t.recipeHeld b ↔ s.recipeHeld b := by
  rw [Station.recipeHeld, h, Station.recipeHeld]

end Readings

namespace Station.SlotsAgree
variable {s t : Station} (h : s.SlotsAgree)
include h

theorem less (hc : s.ClaimsLess t) : t.SlotsAgree where
  lanes := h.lanes.of_lanes (congrArg LaneUnit.lanes hc.lane)
  slots := by
    have hlane := Station.laneAt_of_lane hc.lane
    have hheld {b : Binding} : t.recipeHeld b ↔ s.recipeHeld b := Station.recipeHeld_of_ready (by rw [hc.lane])
    constructor
    case windows => exact fun l => by rw [hlane]; exact h.slots.windows l
    case free => exact fun l => by rw [hlane]; exact h.slots.free l
    case room => exact fun b hb hv => by rw [hlane]; exact h.slots.room b (hc.burst b hb hv) hv
    case digests =>
      obtain ⟨hd, hs⟩ := h.slots.digests
      obtain ⟨ks, hperm, hsub⟩ := hc.digests
      exact ⟨hperm.nodup_iff.1 (hd.sublist hsub),
        fun k hk => (Station.hasSlot_of_lane hc.lane).2 (hs k (hc.digests.subset hk))⟩
    case lookups =>
      obtain ⟨hd, hs⟩ := h.slots.lookups
      exact ⟨hd.sublist hc.lookups, fun k hk => (Station.hasSlot_of_lane hc.lane).2 (hs k (hc.lookups.subset hk))⟩
    case bound =>
      intro i b hb
      obtain ⟨hb', hstate⟩ := hc.entries i b hb
      rw [hlane, hheld, hstate]
      exact h.slots.bound i b hb'
    case once => exact fun i j b hi hj => h.slots.once i j b (hc.entries i b hi).1 (hc.entries j b hj).1
    case held => exact fun b hb => by rw [hlane]; exact h.slots.held b (hheld.1 hb)
    case aborts => exact fun l => by rw [hlane]; exact h.slots.aborts l

/-- Lanes, chunker, entries and tag wait queue as they were. -/
theorem of_same (hl : t.lane = s.lane := by simp) (hk : t.chunker = s.chunker := by simp)
    (he : t.exchange.entries = s.exchange.entries := by simp)
    (hw : t.exchange.waitQueue = s.exchange.waitQueue := by simp) : t.SlotsAgree :=
  h.less {
    lane := hl
    burst := fun b hb _ => by rwa [hk] at hb
    digests := by rw [hk]
    lookups := by rw [Exchange.inLookup, hw, Exchange.inLookup]
    entries := fun i b hb => by
      rw [Station.entry_of_entries he] at hb ⊢
      exact ⟨hb, rfl⟩ }

/-- A chunk of its own DIGESTING slot joins (R108). -/
theorem claimDigest {k : LaneNo × Word} (hs : s.hasSlot k.1 k.2 .digesting) (hk : k ∉ s.chunker.inDigest)
    (hd : t.chunker.inDigest.Perm (k :: s.chunker.inDigest)) (hb : t.chunker.burst = s.chunker.burst)
    (hl : t.lane = s.lane) (hx : t.exchange = s.exchange) : t.SlotsAgree where
  lanes := h.lanes.of_lanes (congrArg LaneUnit.lanes hl)
  slots := by
    have hu : ({ t with chunker := s.chunker } : Station).SlotsAgree := h.of_same hl rfl (by rw [← hx]) (by rw [← hx])
    exact { hu.slots with
      room := fun b => by rw [hb]; exact hu.slots.room b
      digests := by
        obtain ⟨hnodup, hslots⟩ := h.slots.digests
        refine ⟨hd.nodup_iff.2 (List.nodup_cons.2 ⟨hk, hnodup⟩), fun k' hk' => (Station.hasSlot_of_lane hl).2 ?_⟩
        rcases List.mem_cons.1 (hd.mem_iff.1 hk') with rfl | hk'
        · exact hs
        · exact hslots k' hk' }

/-- A lookup of its own LOOKUP slot joins (R69). -/
theorem claimLookup {l : LaneNo} {q : Word} (hs : s.hasSlot l q .lookup) (hq : (l, q) ∉ s.exchange.inLookup) (k : Key)
    (p : StationNo) :
    ({ s with exchange.waitQueue := s.exchange.waitQueue ++ [.lookup l q k p] } : Station).SlotsAgree where
  lanes := h.lanes.of_lanes rfl
  slots := { h.slots with
    lookups := by
      obtain ⟨hnodup, hslots⟩ := h.slots.lookups
      have hin : ({ s.exchange with waitQueue := s.exchange.waitQueue ++ [.lookup l q k p] } : Exchange).inLookup =
          s.exchange.inLookup ++ [(l, q)] := List.filterMap_append
      rw [hin]
      refine ⟨List.nodup_append.2 ⟨hnodup, List.nodup_singleton _, ?_⟩, fun k' hk' => ?_⟩
      · rintro a ha b hb rfl
        rw [List.mem_singleton.1 hb] at ha
        exact hq ha
      · rcases List.mem_append.1 hk' with hk' | hk'
        · exact hslots k' hk'
        · rw [List.mem_singleton.1 hk']
          exact hs }

/-- An entry set, bound to no slot or to one that no other entry is bound to. -/
theorem setEntry {i : EntryIndex} {e : Entry} (he : ∀ b, e.binding = some b →
    (∀ j, j ≠ i → (s.entry j).binding ≠ some b) ∧
    ((∃ x, s.hasSlot b.lane b.seq x ∧ x.fits e.state) ∨ e.state = .resolved ∧ s.recipeHeld b)) :
    (s.setEntry i e).SlotsAgree where
  lanes := h.lanes.setEntry i e
  slots := by
    have cases {j : EntryIndex} {b : Binding} (hb : ((s.setEntry i e).entry j).binding = some b) :
        j = i ∧ (s.setEntry i e).entry j = e ∧ e.binding = some b ∨
          j ≠ i ∧ (s.setEntry i e).entry j = s.entry j ∧ (s.entry j).binding = some b := by
      rw [Station.entry_setEntry] at hb ⊢
      by_cases hij : i = j
      · rw [if_pos hij] at hb ⊢
        exact .inl ⟨hij.symm, rfl, hb⟩
      · rw [if_neg hij] at hb ⊢
        exact .inr ⟨Ne.symm hij, rfl, hb⟩
    exact { h.slots with
      bound := fun j b hb => by
        rcases cases hb with ⟨-, hj, hb⟩ | ⟨-, hj, hb⟩ <;> rw [hj]
        · exact (he b hb).2.imp_left fun ⟨x, ⟨y, hy, hq, hx⟩, hf⟩ => ⟨y, hy, hq, Slot.matches_iff.2 (hx ▸ hf)⟩
        · exact h.slots.bound j b hb
      once := fun j k b hj hk => by
        rcases cases hj with ⟨hji, -, hj⟩ | ⟨hji, -, hj⟩ <;> rcases cases hk with ⟨hki, -, hk⟩ | ⟨hki, -, hk⟩
        · exact hji.trans hki.symm
        · exact absurd hk ((he b hj).1 k hki)
        · exact absurd hj ((he b hk).1 j hji)
        · exact h.slots.once j k b hj hk }

end Station.SlotsAgree

end Sys2Proof.Machine
end

section
namespace Sys2Proof.Machine

/-! #### One lane changed -/

/-- Only a RESOLVED entry works on a RESOLVED slot. -/
theorem SlotState.eq_resolved_of_fits {k : Kind} {e : EntryState} (h : (SlotState.resolved k).fits e) : e = .resolved := by
  cases e <;> simp_all [SlotState.fits, Slot.matches]

/-- The burst in flight finds room for its first byte (R100). -/
def Lane.HasRoom (l : Lane) : Prop := (∃ y ∈ l.window, y.state = .filling) ∨ l.window.length < 64

/-- Where a RECIPE not yet appended comes from: just before the window, or an abort has emptied the lane since (R122, R131). -/
def Lane.HeldBefore (l : Lane) (q : Word) : Prop :=
  l.abortList ≠ [] ∨ (l.state ≠ .free ∧ q = l.record.nextRecipe - BitVec.ofNat 32 (l.window.length + 1))

/-- Lane `l` changed, nothing else but the held report: the lane keeps to its rules, and a slot of it that something works on
stays in its state, or leaves the window as a RECIPE. -/
structure Station.LaneStep (s t : Station) (l : LaneNo) : Prop where
  lanes : t.LanesSound
  others : ∀ k, k ≠ l → t.laneAt k = s.laneAt k
  chunker : t.chunker = s.chunker
  exchange : t.exchange = s.exchange
  window : (t.laneAt l).window.length ≤ 64
  free : (t.laneAt l).state = .free → (t.laneAt l).window = []
  aborts : ∀ r ∈ (t.laneAt l).abortList, ∀ lane seq offset length fp kind locator,
    r ≠ .recipe lane seq offset length fp kind locator
  room : ∀ c, s.chunker.burst = some c → c.void = false → c.lane = l → (s.laneAt l).HasRoom → (t.laneAt l).HasRoom
  slots : ∀ q x, s.hasSlot l q x → ¬s.Unclaimed ⟨l, q⟩ →
    (∃ x', t.hasSlot l q x' ∧ x'.view = x.view) ∨ (∃ k, x = .resolved k) ∧ t.recipeHeld ⟨l, q⟩
  kept : ∀ b, s.recipeHeld b → t.recipeHeld b
  held : ∀ b, t.recipeHeld b → b.lane ≠ l ∧ s.recipeHeld b ∨ b.lane = l ∧ (t.laneAt l).HeldBefore b.seq

/-- A claimed slot after a change of one lane. -/
theorem Station.LaneStep.slot {s t : Station} {l : LaneNo} (hl : s.LaneStep t l) {b : Binding} {x : SlotState}
    (hx : s.hasSlot b.lane b.seq x) (hc : ¬s.Unclaimed b) : (∃ x', t.hasSlot b.lane b.seq x' ∧ x'.view = x.view) ∨ (∃ k, x = .resolved k) ∧ t.recipeHeld b := by
  by_cases hb : b.lane = l
  · obtain ⟨lane, q⟩ := b
    subst hb
    exact hl.slots q x hx hc
  · refine .inl ⟨x, ?_, rfl⟩
    rwa [Station.hasSlot, hl.others _ hb]

namespace Station.SlotsAgree
variable {s t : Station} {l : LaneNo} (h : s.SlotsAgree)
include h

theorem laneStep (hl : s.LaneStep t l) : t.SlotsAgree where
  lanes := hl.lanes
  slots := by
    have hentry := Station.entry_of_entries (s := s) (t := t) (by rw [hl.exchange])
    have other {k : LaneNo} {P : Lane → Prop} (hk : P (t.laneAt l)) (hP : P (s.laneAt k)) : P (t.laneAt k) := by
      by_cases hkl : k = l
      · rwa [hkl]
      · rwa [hl.others k hkl]
    have claimed {b : Binding} {x : SlotState} (hx : s.hasSlot b.lane b.seq x) (hv : ∀ u o, x ≠ .storing u o)
        (hr : ∀ k, x ≠ .resolved k) (hc : ¬s.Unclaimed b) : t.hasSlot b.lane b.seq x := by
      rcases hl.slot hx hc with ⟨x', hx', hv'⟩ | ⟨⟨k, hk⟩, -⟩
      · rwa [SlotState.eq_of_view hv' hv] at hx'
      · exact absurd hk (hr k)
    constructor
    case windows => exact fun k => other (P := fun x => x.window.length ≤ 64) hl.window (h.slots.windows k)
    case free => exact fun k => other (P := fun x => x.state = .free → x.window = []) hl.free (h.slots.free k)
    case aborts =>
      exact fun k => other (P := fun x => ∀ r ∈ x.abortList, ∀ lane seq offset length fp kind locator,
        r ≠ .recipe lane seq offset length fp kind locator) hl.aborts (h.slots.aborts k)
    case room =>
      intro b hb hv
      rw [hl.chunker] at hb
      have hroom : (s.laneAt b.lane).HasRoom := h.slots.room b hb hv
      change (t.laneAt b.lane).HasRoom
      by_cases hbl : b.lane = l
      · rw [hbl] at hroom ⊢
        exact hl.room b hb hv hbl hroom
      · rwa [hl.others _ hbl]
    case digests =>
      rw [hl.chunker]
      refine ⟨h.slots.digests.1, fun k hk => ?_⟩
      exact claimed (b := ⟨k.1, k.2⟩) (h.slots.digests.2 k hk) nofun nofun fun hu => hu.digest hk
    case lookups =>
      rw [hl.exchange]
      refine ⟨h.slots.lookups.1, fun k hk => ?_⟩
      exact claimed (b := ⟨k.1, k.2⟩) (h.slots.lookups.2 k hk) nofun nofun fun hu => hu.lookup hk
    case bound =>
      intro i b hb
      rw [hentry] at hb ⊢
      rcases h.bound_cases hb with ⟨x, hx, hf⟩ | ⟨hr, hheld⟩
      · rcases hl.slot hx fun hu => hu.bound i hb with ⟨x', ⟨y, hy, hq, hyx⟩, hv⟩ | ⟨⟨k, rfl⟩, hheld⟩
        · exact .inl ⟨y, hy, hq, Slot.matches_iff.2 (hyx ▸ SlotState.fits_of_view hv hf)⟩
        · exact .inr ⟨SlotState.eq_resolved_of_fits hf, hheld⟩
      · exact .inr ⟨hr, hl.kept b hheld⟩
    case once =>
      intro i j b hi hj
      rw [hentry] at hi hj
      exact h.slots.once i j b hi hj
    case held =>
      intro b hb
      rcases hl.held b hb with ⟨hbl, hs⟩ | ⟨hbl, hbefore⟩
      · rw [hl.others _ hbl]
        exact h.slots.held b hs
      · rw [hbl]
        exact hbefore

end Station.SlotsAgree

end Sys2Proof.Machine
end

section
namespace Sys2Proof.Machine

/-- A change of lane `l` into `y` that the slots' claims allow. -/
structure Station.LaneChange (s : Station) (l : LaneNo) (y : Lane) : Prop where
  sound : y.Sound
  window : y.window.length ≤ 64
  free : y.state = .free → y.window = []
  aborts : ∀ r ∈ y.abortList, ∀ lane seq offset length fp kind locator,
    r ≠ .recipe lane seq offset length fp kind locator
  room : ∀ c, s.chunker.burst = some c → c.void = false → c.lane = l → (s.laneAt l).HasRoom → y.HasRoom
  slots : ∀ z ∈ (s.laneAt l).window, ¬s.Unclaimed ⟨l, z.seq⟩ →
    ∃ z' ∈ y.window, z'.seq = z.seq ∧ z'.state.view = z.state.view
  before : ∀ q, (s.laneAt l).HeldBefore q → y.HeldBefore q

namespace Station.SlotsAgree
variable {s : Station} (h : s.SlotsAgree)
include h

theorem laneChange {l : LaneNo} {f : Lane → Lane} (hc : s.LaneChange l (f (s.laneAt l))) : (s.mapLane l f).SlotsAgree := by
  have hself : (s.mapLane l f).laneAt l = f (s.laneAt l) := by rw [Station.laneAt_mapLane, if_pos rfl]
  refine h.laneStep (l := l) ?_
  constructor
  case lanes => exact h.lanes.mapLane hc.sound
  case others => exact fun k hk => by rw [Station.laneAt_mapLane, if_neg hk.symm]
  case chunker => rfl
  case exchange => rfl
  case window => rw [hself]; exact hc.window
  case free => rw [hself]; exact hc.free
  case aborts => rw [hself]; exact hc.aborts
  case room => rw [hself]; exact hc.room
  case slots =>
    rintro q x ⟨z, hz, rfl, rfl⟩ hclaimed
    obtain ⟨z', hz', hq, hv⟩ := hc.slots z hz hclaimed
    exact .inl ⟨z'.state, ⟨z', by rwa [hself], hq, rfl⟩, hv⟩
  case kept => exact fun b hb => hb
  case held =>
    intro b hb
    by_cases hl : b.lane = l
    · refine .inr ⟨hl, ?_⟩
      rw [hself]
      exact hc.before _ (hl ▸ h.slots.held b hb)
    · exact .inl ⟨hl, hb⟩

/-- A change of a lane that leaves its window and its place in the stream. -/
theorem laneChange_same {l : LaneNo} {y : Lane} (hs : y.Sound) (hw : y.window = (s.laneAt l).window)
    (ha : y.abortList = (s.laneAt l).abortList) (hf : y.state = .free ↔ (s.laneAt l).state = .free)
    (hr : y.record.nextRecipe = (s.laneAt l).record.nextRecipe) : s.LaneChange l y where
  sound := hs
  window := by rw [hw]; exact h.slots.windows l
  free := by rw [hw, hf]; exact h.slots.free l
  aborts := by rw [ha]; exact h.slots.aborts l
  room _ _ _ _ := by rw [Lane.HasRoom, Lane.HasRoom, hw]; exact id
  slots z hz _ := ⟨z, by rwa [hw], rfl, rfl⟩
  before q := by
    rw [Lane.HeldBefore, Lane.HeldBefore, ha, hw, hr, ne_eq, ne_eq, ne_eq, hf]
    exact id

/-- The slots of a lane moved, where nothing works on those whose state changes. -/
theorem laneChange_map {l : LaneNo} {f : Slot → Slot} (hf : SlotMove f)
    (hc : ∀ z ∈ (s.laneAt l).window, ¬s.Unclaimed ⟨l, z.seq⟩ → (f z).state.view = z.state.view)
    (hr : ∀ c, s.chunker.burst = some c → c.void = false → c.lane = l →
      ∀ z ∈ (s.laneAt l).window, z.state = .filling → (f z).state = .filling) :
    s.LaneChange l { s.laneAt l with window := (s.laneAt l).window.map f } where
  sound := (h.lanes l).moved hf
  window := by rw [List.length_map]; exact h.slots.windows l
  free hfree := by rw [h.slots.free l hfree]; rfl
  aborts := h.slots.aborts l
  room c hb hv hcl hroom := by
    rcases hroom with ⟨z, hz, hs⟩ | hlen
    · exact .inl ⟨f z, List.mem_map_of_mem hz, hr c hb hv hcl z hz hs⟩
    · exact .inr (by rwa [List.length_map])
  slots z hz hclaimed :=
    ⟨f z, List.mem_map_of_mem hz, congrArg Span.seq (hf.span z), hc z hz hclaimed⟩
  before q := by
    rw [Lane.HeldBefore, Lane.HeldBefore, List.length_map]
    exact id

/-- A slot that nothing works on is moved. A FILLING one must not be the room of the burst in flight. -/
theorem move {b : Binding} (hu : s.Unclaimed b) {f : Slot → Slot} (hf : SlotMove f)
    (hr : ∀ c, s.chunker.burst = some c → c.void = false → c.lane = b.lane → ¬s.hasSlot b.lane b.seq .filling) :
    (s.moveSlot (some b) f).SlotsAgree := by
  have hother {z : Slot} (hq : z.seq ≠ b.seq) : (if z.seq = b.seq then f z else z) = z := if_neg hq
  refine h.laneChange (h.laneChange_map (hf.ite fun y => y.seq = b.seq) (fun z _ hclaimed => ?_) fun c hb hv hcl z hz hs => ?_)
  · rw [hother fun hq => hclaimed (hq ▸ hu)]
  · rwa [hother fun hq => hr c hb hv hcl ⟨z, hz, hq, hs⟩]

/-- A slot, not FILLING, that nothing works on is moved. -/
theorem moveFrom {b : Binding} (hu : s.Unclaimed b) {f : Slot → Slot} (hf : SlotMove f) {x : SlotState}
    (hx : s.hasSlot b.lane b.seq x) (hne : x ≠ .filling) : (s.moveSlot (some b) f).SlotsAgree :=
  h.move hu hf fun _ _ _ _ hfill => hne (h.hasSlot_unique hx hfill)

omit h in
/-- The slot moved stands in its lane as the move leaves it. -/
theorem hasSlot_moveSlot {b : Binding} {f : Slot → Slot} (hf : SlotMove f) {y : Slot}
    (hy : y ∈ (s.laneAt b.lane).window) (hq : y.seq = b.seq) :
    (s.moveSlot (some b) f).hasSlot b.lane b.seq (f y).state := by
  rw [Station.hasSlot, Station.moveSlot, Station.laneAt_mapLane, if_pos rfl]
  refine ⟨f y, List.mem_map.2 ⟨y, hy, if_pos hq⟩, ?_, rfl⟩
  exact (congrArg Span.seq (hf.span y)).trans hq


end Station.SlotsAgree

end Sys2Proof.Machine
end

section
namespace Sys2Proof.Machine

/-! #### Work on entries (R63, R67, R72) -/

namespace Station.SlotsAgree
variable {s t : Station} (h : s.SlotsAgree)
include h

/-- An entry unbound. -/
theorem unbind {i : EntryIndex} {e : Entry} (he : e.binding = none) : (s.setEntry i e).SlotsAgree :=
  h.setEntry fun _ hb => absurd (he.symm.trans hb) nofun

/-- The slot of an entry is claimed by nothing else. -/
theorem unclaimed_of_unbind {i : EntryIndex} {b : Binding} (hb : (s.entry i).binding = some b) {e : Entry}
    (he : e.binding = none) : (s.setEntry i e).Unclaimed b where
  digest hm := SlotState.not_fits (.inr (.inl rfl)) _ (h.bound_fits hb (h.slots.digests.2 _ hm))
  lookup hm := SlotState.not_fits (.inr (.inr (.inl rfl))) _ (h.bound_fits hb (h.slots.lookups.2 _ hm))
  bound j hj := by
    rw [Station.entry_setEntry] at hj
    split at hj
    next => exact absurd (he.symm.trans hj) nofun
    next hij => exact hij (h.slots.once i j b hb hj)

/-- An entry changed, and with it the slot that it is bound to. -/
theorem entryChanged {i : EntryIndex} {f : Slot → Slot} {e : Entry} (hc : s.EntryChanged i f e t) : t.SlotsAgree := by
  obtain ⟨⟨-, hf, hslot⟩, hentries, hlane, hchunker, hqueue⟩ := hc
  cases hb : (s.entry i).binding with
  | none =>
    have he : e.binding = none := hslot.elim id fun ⟨he, _⟩ => he.trans hb
    rw [hb] at hlane
    exact (h.unbind (i := i) he).of_same hlane hchunker hentries hqueue
  | some b =>
    rw [hb] at hlane hslot
    have hfree : (s.setEntry i {}).SlotsAgree := h.unbind rfl
    have hu : (s.setEntry i {}).Unclaimed b := h.unclaimed_of_unbind hb rfl
    have hmoved : ((s.setEntry i {}).moveSlot (some b) f).SlotsAgree :=
      hfree.move hu hf fun _ _ _ _ hx => SlotState.not_fits (.inl rfl) _ (h.bound_fits hb hx)
    have hset : (((s.setEntry i {}).moveSlot (some b) f).setEntry i e).SlotsAgree := by
      refine hmoved.setEntry fun b' hb' => ?_
      obtain ⟨hbind, hresolved, hmatch⟩ := hslot.resolve_left fun hn => absurd (hn.symm.trans hb') nofun
      cases hbind.symm.trans hb'
      refine ⟨fun j _ => hu.bound j, ?_⟩
      rcases h.slots.bound i b hb with ⟨y, hy, hq, hm⟩ | ⟨hr, hheld⟩
      · exact .inl ⟨_, hasSlot_moveSlot (s := s.setEntry i {}) hf hy hq, Slot.matches_iff.1 (hmatch y hm)⟩
      · exact .inr ⟨hresolved hr, hheld⟩
    refine hset.of_same ?_ hchunker ?_ hqueue
    · rw [hlane]
      rfl
    · rw [hentries, ← Station.setEntry_moveSlot, Station.setEntry_setEntry]
      rfl

theorem of_work (hw : s.EntryWork t) : t.SlotsAgree := hw.keeps (fun _ _ _ _ _ hc hu => hu.entryChanged hc) h

end Station.SlotsAgree

end Sys2Proof.Machine
end

section
namespace Sys2Proof.Machine

/-! #### Lookups, digests and stored slots (R68, R70, R78, R109, R120) -/

theorem Station.Unclaimed.of_same {s t : Station} {b : Binding} (h : s.Unclaimed b) (hk : t.chunker = s.chunker)
    (hx : t.exchange = s.exchange) : t.Unclaimed b where
  digest := by rw [hk]; exact h.digest
  lookup := by rw [hx]; exact h.lookup
  bound i := by
    rw [Station.entry_of_entries (s := s) (by rw [hx])]
    exact h.bound i

namespace Station.SlotsAgree
variable {s t : Station} (h : s.SlotsAgree)
include h

/-- A slot that nothing works on is stored unindexed. -/
theorem storeUnindexed {b : Binding} (hu : s.Unclaimed b) {x : SlotState} (hx : s.hasSlot b.lane b.seq x)
    (hne : x ≠ .filling) (r : Reason) : (s.storeUnindexed r (some b)).SlotsAgree :=
  (h.moveFrom hu (slotMove_toStoring _) hx hne).of_same rfl rfl rfl rfl

/-- The head of the tag wait queue granted a tag, or its slot stored unindexed (R70). -/
theorem grant {r : TagRequest} {rest : List TagRequest} (hq : s.exchange.waitQueue = r :: rest) (i : EntryIndex) :
    ({ s with exchange.waitQueue := rest }.grant r i).SlotsAgree := by
  have hin : s.exchange.inLookup = ({ s.exchange with waitQueue := r :: rest } : Exchange).inLookup := by
    rw [Exchange.inLookup, hq, Exchange.inLookup]
  have hrest : ({ s with exchange.waitQueue := rest } : Station).SlotsAgree := h.less {
    lane := rfl
    burst := fun _ hb _ => hb
    digests := .refl _
    lookups := hin ▸ (List.sublist_cons_self r rest).filterMap _
    entries := fun _ _ hb => ⟨hb, rfl⟩ }
  cases r with
  | hostRelease k l c p => exact hrest.unbind rfl
  | lookup l n k p =>
    have hcons : s.exchange.inLookup = (l, n) :: ({ s.exchange with waitQueue := rest } : Exchange).inLookup := hin
    obtain ⟨hnodup, hslots⟩ := h.slots.lookups
    rw [hcons] at hnodup hslots
    obtain ⟨y, hy, hyq, hs⟩ := hslots (l, n) List.mem_cons_self
    have hx : ({ s with exchange.waitQueue := rest } : Station).hasSlot l n .lookup := ⟨y, hy, hyq, hs⟩
    have hu : ({ s with exchange.waitQueue := rest } : Station).Unclaimed ⟨l, n⟩ :=
      hrest.unclaimed (b := ⟨l, n⟩) hx nofun (fun _ => (List.nodup_cons.1 hnodup).1)
        fun _ _ => SlotState.not_fits (.inr (.inr (.inl rfl))) _
    unfold Station.grant
    dsimp only
    split
    · have hf : SlotMove (Slot.enter .asking) := slotMove_enter nofun
      refine (hrest.moveFrom hu hf hx nofun).setEntry fun b hb => ?_
      cases hb
      exact ⟨fun j _ => hu.bound j, .inl ⟨_, hasSlot_moveSlot (b := ⟨l, n⟩) hf hy hyq, rfl⟩⟩
    · exact hrest.storeUnindexed hu hx nofun _

/-- The checks on a digested slot that nothing works on (R68). -/
theorem lookupCheck {l : LaneNo} {q : Word} (hu : s.Unclaimed ⟨l, q⟩) {y : Slot} (hy : y ∈ (s.laneAt l).window)
    (hq : y.seq = q) (hs : y.state = .digesting) (k : Key) : (s.lookupCheck l q k).SlotsAgree := by
  have hx : s.hasSlot l q .digesting := ⟨y, hy, hq, hs⟩
  unfold Station.lookupCheck
  dsimp only
  split
  · exact h.storeUnindexed hu hx nofun _
  split
  · have hf : SlotMove (Slot.enter .lookup) := slotMove_enter nofun
    refine (h.moveFrom hu hf hx nofun).claimLookup (hasSlot_moveSlot (b := ⟨l, q⟩) hf hy hq) ?_ k _
    exact hu.lookup
  · exact h.storeUnindexed hu hx nofun _

/-- A chunk leaves the digest engine, and its slot goes on (R109, R116). -/
theorem digestDone {d : DigestEntry} (he : s.chunker.engine = some ⟨d, false⟩) :
    ({ s with chunker.engine := none }.digestDone d).SlotsAgree := by
  have hin : s.chunker.inDigest = ({ s.chunker with engine := none } : Chunker).inDigest ++ [(d.lane, d.seq)] := by
    simp [Chunker.inDigest, he]
  obtain ⟨hnodup, hslots⟩ := h.slots.digests
  rw [hin] at hnodup hslots
  have hdone : ({ s with chunker.engine := none } : Station).SlotsAgree := h.less {
    lane := rfl
    burst := fun _ hb _ => hb
    digests := by
      rw [hin]
      exact (List.sublist_append_left _ _).subperm
    lookups := .refl _
    entries := fun _ _ hb => ⟨hb, rfl⟩ }
  obtain ⟨y, hy, hyq, hs⟩ := hslots (d.lane, d.seq) (List.mem_append_right _ (List.mem_singleton_self _))
  have hx : ({ s with chunker.engine := none } : Station).hasSlot d.lane d.seq .digesting := ⟨y, hy, hyq, hs⟩
  have hu : ({ s with chunker.engine := none } : Station).Unclaimed ⟨d.lane, d.seq⟩ :=
    hdone.unclaimed (b := ⟨d.lane, d.seq⟩) hx
      (fun _ hm => (List.nodup_append.1 hnodup).2.2 _ hm _ (List.mem_singleton_self _) rfl) nofun
      fun _ _ => SlotState.not_fits (.inr (.inl rfl)) _
  have hf : SlotMove fun x : Slot => { x with fp := some (Config.fingerprint d.absorbed.reverse) } :=
    ⟨fun _ => rfl, fun _ => id⟩
  obtain ⟨z, hz, hzq, hzs⟩ := hasSlot_moveSlot (s := { s with chunker.engine := none }) (b := ⟨d.lane, d.seq⟩) hf hy hyq
  exact (hdone.moveFrom hu hf hx nofun).lookupCheck (hu.of_same rfl rfl) hz hzq (hzs.trans hs) _

omit h in
/-- The slot that a sequence number names, STORING with its STORE reported (R120). -/
theorem storingSlot_mem {l : Lane} {q : Word} {u : Option Reason} (hs : l.storingSlot q = some u) :
    ∃ y ∈ l.window, y.seq = q ∧ y.state = .storing u false := by
  obtain ⟨y, hy, hu⟩ := Option.bind_eq_some_iff.1 hs
  refine ⟨y, List.mem_of_find?_eq_some hy, by simpa using List.find?_some hy, ?_⟩
  unfold Slot.storingReported at hu
  split at hu
  next hstate => rw [hstate, Option.some.inj hu]
  next => cases hu

omit h in
/-- Only a STORING entry works on an indexed STORING slot. -/
theorem eq_storing_of_fits {o : Bool} {e : EntryState} (hf : (SlotState.storing none o).fits e) : e = .storing := by
  cases e <;> simp_all [SlotState.fits, Slot.matches]

/-- A STORED that is taken: an indexed slot's entry commits, an unindexed slot is RESOLVED (R78, R120). -/
theorem storedSlot {b : Binding} {u : Option Reason} (hs : (s.laneAt b.lane).storingSlot b.seq = some u) (l : Locator) :
    (s.storedSlot b u l).SlotsAgree := by
  obtain ⟨y, hy, hq, hstate⟩ := storingSlot_mem hs
  have hx : s.hasSlot b.lane b.seq (.storing u false) := ⟨y, hy, hq, hstate⟩
  cases u with
  | some r =>
    refine h.moveFrom (h.unclaimed hx nofun nofun fun _ _ => ?_) (slotMove_resolve _ _) hx nofun
    exact SlotState.not_fits (.inr (.inr (.inr ⟨r, false, rfl⟩))) _
  | none =>
    have hf : SlotMove fun x : Slot => { x with state := .committing, locator := some l } := ⟨fun _ => rfl, nofun⟩
    unfold Station.storedSlot Station.commitBound
    dsimp only
    split
    next i hi =>
      have hb : (s.entry i).binding = some b := (Station.boundEntry_eq_some.1 hi).1
      have hstoring := eq_storing_of_fits (h.bound_fits hb hx)
      refine h.of_work (.of_setEntry (f := fun x => { x with state := .committing, locator := some l }) ?_ (by rw [hb]) rfl rfl)
      refine .together hf rfl (by rw [hstoring]; nofun) (fun _ => rfl) fun hsound => ?_
      exact hsound.commitBound (by rw [hb]; rfl) l
    next hi =>
      refine h.moveFrom (h.unclaimed hx nofun nofun fun i hb => ?_) hf hx nofun
      exact absurd hb (beq_eq_false_iff_ne.1 (lowestFind_eq_none.1 hi i))

end Station.SlotsAgree

end Sys2Proof.Machine
end

section
namespace Sys2Proof.Machine

/-! #### Cuts and bytes consumed (R99, R103, R106, R107) -/

/-- No burst in flight, or only a void one, is a lane's. -/
def Station.NoBurstFor (s : Station) (l : LaneNo) : Prop :=
  ∀ c, s.chunker.burst = some c → c.void = false → c.lane ≠ l

theorem Station.noBurstFor_iff {s : Station} {l : LaneNo} : s.burstFor l = false ↔ s.NoBurstFor l := by
  unfold Station.burstFor Station.NoBurstFor
  cases s.chunker.burst with
  | none => simp
  | some c =>
    simp only [Bool.and_eq_false_iff, beq_eq_false_iff_ne, Bool.not_eq_false', Option.some.injEq, forall_eq']
    cases c.void <;> simp

namespace Station.SlotsAgree
variable {s t : Station} (h : s.SlotsAgree)
include h

/-- A FILLING slot is not yet worked on. -/
theorem unclaimed_filling {b : Binding} (hx : s.hasSlot b.lane b.seq .filling) : s.Unclaimed b :=
  h.unclaimed hx nofun nofun fun _ _ => SlotState.not_fits (.inl rfl) _

/-- The FILLING slot is cut: it becomes a chunk of the digest FIFO (R99). -/
theorem cutLane {l : LaneNo} (hb : s.NoBurstFor l) : (s.cutLane l).SlotsAgree := by
  unfold Station.cutLane
  split
  next x hx =>
    have hmem : x ∈ (s.laneAt l).window := List.mem_of_find?_eq_some hx
    have hstate : x.state = .filling := by simpa using List.find?_some (p := fun x : Slot => x.state == .filling) hx
    have hfilling : s.hasSlot l x.seq .filling := ⟨x, hmem, rfl, hstate⟩
    have hf : SlotMove (Slot.enter .digesting) := slotMove_enter nofun
    have hcut : (s.mapLane l Lane.cutSlot).SlotsAgree := by
      refine h.laneChange (h.laneChange_map (hf.ite fun y => y.state = .filling) (fun z hz hclaimed => ?_)
        fun c hc hv hcl => absurd hcl (hb c hc hv))
      have hstill : (if z.state = .filling then z.enter .digesting else z) = z :=
        if_neg fun hs => hclaimed (h.unclaimed_filling (b := ⟨l, z.seq⟩) ⟨z, hz, rfl, hs⟩)
      rw [hstill]
    have hslot : (s.mapLane l Lane.cutSlot).hasSlot l x.seq .digesting := by
      rw [Station.hasSlot, Station.laneAt_mapLane, if_pos rfl]
      exact ⟨x.enter .digesting, List.mem_map.2 ⟨x, hmem, if_pos hstate⟩, rfl, rfl⟩
    refine hcut.claimDigest (k := (l, x.seq)) hslot (h.unclaimed_filling (b := ⟨l, x.seq⟩) hfilling).digest ?_ rfl rfl rfl
    simp only [Chunker.inDigest, List.map_append, List.map_singleton, List.append_assoc, List.singleton_append]
    exact List.perm_middle
  next => exact h

theorem finalCut (l : LaneNo) : (s.finalCut l).SlotsAgree := by
  unfold Station.finalCut
  split
  next hc =>
    simp only [Bool.and_eq_true, Bool.not_eq_true'] at hc
    exact h.cutLane (Station.noBurstFor_iff.1 hc.2)
  next => exact h

/-- Contexts and the pointer of the chunker are no claims. -/
theorem of_chunker {c : Vector Context 32} {p : LaneNo} :
    ({ s with chunker.contexts := c, chunker.pointer := p } : Station).SlotsAgree :=
  h.less {
    lane := rfl
    burst := fun _ hb _ => hb
    digests := .refl _
    lookups := .refl _
    entries := fun _ _ hb => ⟨hb, rfl⟩ }

end Station.SlotsAgree

/-- Bytes consumed leave the number and the state of every slot. -/
theorem Lane.mem_consumeBytes {l : Lane} {y : Slot} (hy : y ∈ l.window) (q : Word) (k : Nat) :
    ∃ y' ∈ (l.consumeBytes q k).window, y'.seq = y.seq ∧ y'.state = y.state := by
  refine ⟨if y.state = .filling then { y with length := y.length + k } else y, List.mem_map_of_mem hy, ?_⟩
  split <;> exact ⟨rfl, rfl⟩

theorem Lane.ensureFilling_cases (l : Lane) :
    l.ensureFilling = l ∨ l.filling = none ∧ l.ensureFilling = l.openSlot := by
  unfold Lane.ensureFilling
  cases hf : l.filling with
  | none => exact .inr ⟨rfl, rfl⟩
  | some x => exact .inl rfl

/-- A lane with room takes its next byte in a window of at most 64 slots (R100). -/
theorem Lane.HasRoom.ensureFilling_length {l : Lane} (h : l.HasRoom) (hl : l.window.length ≤ 64) :
    l.ensureFilling.window.length ≤ 64 := by
  rcases l.ensureFilling_cases with he | ⟨hf, he⟩ <;> rw [he]
  · exact hl
  · rcases h with ⟨y, hy, hs⟩ | hlt
    · exact absurd hs (by simpa using List.find?_eq_none.1 hf y hy)
    · simpa [Lane.openSlot] using hlt

theorem Lane.mem_ensureFilling {l : Lane} {y : Slot} (hy : y ∈ l.window) : y ∈ l.ensureFilling.window := by
  rcases l.ensureFilling_cases with he | ⟨-, he⟩ <;> rw [he]
  · exact hy
  · exact List.mem_append_left _ hy

/-- A slot opened moves the window's end and the lane's next number alike. -/
theorem Lane.HeldBefore.ensureFilling {l : Lane} {q : Word} (h : l.HeldBefore q) : l.ensureFilling.HeldBefore q := by
  rcases l.ensureFilling_cases with he | ⟨-, he⟩ <;> rw [he]
  · exact h
  · refine h.imp_right fun ⟨hs, hq⟩ => ⟨hs, hq.trans ?_⟩
    have hlen : l.openSlot.window.length = l.window.length + 1 := by simp [Lane.openSlot]
    have hnumber : BitVec.ofNat 32 (l.window.length + 1 + 1) = BitVec.ofNat 32 (l.window.length + 1) + 1 :=
      BitVec.ofNat_add _ 1
    rw [hlen, hnumber]
    exact (add_sub_add_right_eq_sub l.record.nextRecipe _ (1 : Word)).symm

theorem Lane.ensureFilling_kept (l : Lane) : l.ensureFilling.state = l.state ∧ l.ensureFilling.abortList = l.abortList := by
  rcases l.ensureFilling_cases with he | ⟨-, he⟩ <;> rw [he] <;> exact ⟨rfl, rfl⟩

namespace Station.SlotsAgree
variable {s t : Station} (h : s.SlotsAgree)
include h

/-- Bytes of a burst consumed by a lane with room for them (R103). -/
theorem consumeBytes {l : LaneNo} (hs : (s.laneAt l).state ≠ .free) (hr : (s.laneAt l).HasRoom) (q : Word) (k : Nat) :
    s.LaneChange l ((s.laneAt l).ensureFilling.consumeBytes q k) where
  sound := (h.lanes l).ensureFilling.consumeBytes (Lane.ensureFilling_filling _) q k
  window := by
    rw [Lane.consumeBytes, List.length_map]
    exact hr.ensureFilling_length (h.slots.windows l)
  free hf := absurd ((Lane.ensureFilling_kept _).1.symm.trans hf) hs
  aborts := by
    change ∀ r ∈ (s.laneAt l).ensureFilling.abortList, _
    rw [(Lane.ensureFilling_kept _).2]
    exact h.slots.aborts l
  room _ _ _ _ _ := by
    obtain ⟨w, y, hw, -, hy⟩ := (h.lanes l).ensureFilling.window.filling_last (Lane.ensureFilling_filling _)
    obtain ⟨y', hy', -, hs'⟩ := Lane.mem_consumeBytes (y := y) (by rw [hw]; simp) q k
    exact .inl ⟨y', hy', hs'.trans hy⟩
  slots z hz _ := by
    obtain ⟨z', hz', hq, hs'⟩ := Lane.mem_consumeBytes (Lane.mem_ensureFilling hz) q k
    exact ⟨z', hz', hq, by rw [hs']⟩
  before q' hq := by
    have hlen : ((s.laneAt l).ensureFilling.consumeBytes q k).window.length =
        (s.laneAt l).ensureFilling.window.length := List.length_map ..
    rw [Lane.HeldBefore, hlen]
    exact hq.ensureFilling

theorem consumeBurst {b : Burst} (hs : (s.laneAt b.lane).state ≠ .free) (hr : (s.laneAt b.lane).HasRoom)
    (hb : s.NoBurstFor b.lane) (bytes : List Byte) : (s.consumeBurst b bytes).SlotsAgree := by
  have hcons (k : Nat) (c : Context) : ((s.mapLane b.lane fun l =>
      if bytes.isEmpty then l else l.ensureFilling.consumeBytes b.segment k).setContext b.lane c).SlotsAgree := by
    refine of_chunker (laneChange h ?_)
    split
    · exact h.laneChange_same (h.lanes _) rfl rfl Iff.rfl rfl
    · exact h.consumeBytes hs hr _ _
  unfold Station.consumeBurst
  dsimp only
  split
  · exact (hcons _ _).cutLane hb
  · exact hcons _ _

end Station.SlotsAgree

end Sys2Proof.Machine
end

section
namespace Sys2Proof.Machine

/-! #### The abort of a lane (R89, R105, R110, R130, R131) -/

/-- The abort of a slot leaves the entry that works on it unbound (Table 4.7). -/
theorem Entry.afterAbort_unbound {x : SlotState} {e : Entry} (h : x.fits e.state) (now : Tick) :
    (e.afterAbort now).binding = none := by
  unfold Entry.afterAbort
  split
  case h_8 hs | h_9 hs | h_10 hs => rw [hs] at h; cases h
  all_goals rfl

/-- The chunk in the digest engine, where it is not void. -/
def DigestJob.chunk (j : Option DigestJob) : List (LaneNo × Word) :=
  match j with
  | some ⟨d, false⟩ => [(d.lane, d.seq)]
  | some ⟨_, true⟩ | none => []

theorem Chunker.inDigest_eq (c : Chunker) :
    c.inDigest = c.digests.map (fun d => (d.lane, d.seq)) ++ DigestJob.chunk c.engine := by
  unfold Chunker.inDigest DigestJob.chunk
  rcases c.engine with _ | ⟨d, _ | _⟩ <;> rfl

/-- No chunk of an aborted lane is left. -/
theorem Chunker.inDigest_abortLane (l : LaneNo) (c : Chunker) :
    (c.abortLane l).inDigest = c.inDigest.filter fun k => k.1 != l := by
  have hengine : DigestJob.chunk (c.abortLane l).engine = (DigestJob.chunk c.engine).filter fun k => k.1 != l := by
    unfold Chunker.abortLane
    rcases c.engine with _ | ⟨d, _ | _⟩
    · rfl
    · by_cases hd : d.lane = l <;> simp [DigestJob.chunk, hd]
    · by_cases hd : d.lane = l <;> simp [DigestJob.chunk, hd]
  rw [Chunker.inDigest_eq, hengine, Chunker.inDigest_eq, List.filter_append]
  congr 1
  simp [Chunker.abortLane, List.filter_map, Function.comp_def]

/-- No lookup of an aborted lane is left. -/
theorem Exchange.inLookup_filter (l : LaneNo) (x : Exchange) :
    ({ x with waitQueue := x.waitQueue.filter fun r => !r.ofLane l } : Exchange).inLookup =
      x.inLookup.filter fun k => k.1 != l := by
  rw [Exchange.inLookup, Exchange.inLookup, List.filter_filterMap, List.filterMap_filter]
  refine List.filterMap_congr fun r _ => ?_
  cases r with
  | lookup k q key p => by_cases hk : k = l <;> simp [TagRequest.ofLane, hk, Option.filter]
  | hostRelease => rfl

/-- The station in the middle of an abort of lane `l`: the chunker and the exchange unit have dealt with its slots, the lane
still has them. -/
def Station.claimsAborted (l : LaneNo) (entries : Vector Entry 256) (s : Station) : Station :=
  { s with
    exchange.entries := entries
    exchange.waitQueue := s.exchange.waitQueue.filter fun r => !r.ofLane l
    chunker := s.chunker.abortLane l }

/-- A burst that is not void is another lane's. -/
theorem Station.claimsAborted_burst {l : LaneNo} {entries : Vector Entry 256} {s : Station} {b : Burst}
    (hb : (s.claimsAborted l entries).chunker.burst = some b) (hv : b.void = false) :
    s.chunker.burst = some b ∧ b.lane ≠ l := by
  obtain ⟨c, hc, hcb⟩ := Option.map_eq_some_iff.1 hb
  split at hcb <;> subst hcb
  · cases hv
  · exact ⟨hc, ‹_›⟩

theorem Station.claimsAborted_inDigest (l : LaneNo) (entries : Vector Entry 256) (s : Station) :
    (s.claimsAborted l entries).chunker.inDigest = s.chunker.inDigest.filter fun k => k.1 != l :=
  Chunker.inDigest_abortLane ..

theorem Station.claimsAborted_inLookup (l : LaneNo) (entries : Vector Entry 256) (s : Station) :
    (s.claimsAborted l entries).exchange.inLookup = s.exchange.inLookup.filter fun k => k.1 != l :=
  Exchange.inLookup_filter ..

/-- An abort list holds no RECIPE (R131). -/
theorem Lane.not_recipe_of_mem_buildAbortList {l : LaneNo} {reason : AbortReason} {x : Lane} {r : Report}
    (h : r ∈ x.buildAbortList l reason) (lane seq offset length fp kind locator) :
    r ≠ .recipe lane seq offset length fp kind locator := by
  rcases List.mem_append.1 h with h | h
  · obtain ⟨y, -, hy⟩ := List.mem_filterMap.1 h
    unfold Lane.abortReport at hy
    dsimp only at hy
    split at hy <;> cases hy <;> exact nofun
  · rw [List.mem_singleton.1 h]
    exact nofun

namespace Station.SlotsAgree
variable {s t : Station} (h : s.SlotsAgree)
include h

/-- After the abort of a lane an entry is bound as it was, and to no slot of the lane's window. -/
theorem abortLane_bound {l : LaneNo} {r : AbortReason} {i : EntryIndex} {b : Binding}
    (hb : ((s.abortLane l r).entry i).binding = some b) : (s.abortLane l r).entry i = s.entry i ∧
      (s.entry i).binding = some b ∧ ∀ y ∈ (s.laneAt l).window, b ≠ ⟨l, y.seq⟩ := by
  have hab := s.abortLane_laneAborted l r
  by_cases hw : ∃ y ∈ (s.laneAt l).window, (s.entry i).binding = some ⟨l, y.seq⟩
  · obtain ⟨y, hy, hyb⟩ := hw
    have hat : s.BoundAt l y.seq i := ⟨hyb, fun j hj hjb => hj.ne (congrArg Fin.val (h.slots.once j i _ hjb hyb))⟩
    have hfits := h.bound_fits hyb (x := y.state) ⟨y, hy, rfl, rfl⟩
    rw [hab.bound y hy i hat, Entry.afterAbort_unbound hfits] at hb
    cases hb
  · have hsame := hab.unbound i fun y hy hyb => hw ⟨y, hy, hyb⟩
    rw [hsame] at hb
    refine ⟨hsame, hb, fun y hy hby => hw ⟨y, hy, ?_⟩⟩
    rw [hb, hby]

section Aborted
variable {l : LaneNo} {r : AbortReason} {entries : Vector Entry 256}
  (he : (s.abortLane l r).exchange.entries = entries)
include he

theorem claimsAborted : (s.claimsAborted l entries).SlotsAgree :=
  h.less {
    lane := rfl
    burst := fun b hb hv => (Station.claimsAborted_burst hb hv).1
    digests := by
      rw [Station.claimsAborted_inDigest]
      exact List.filter_sublist.subperm
    lookups := by
      rw [Station.claimsAborted_inLookup]
      exact List.filter_sublist
    entries := fun i b hb => by
      have hentry : (s.claimsAborted l entries).entry i = (s.abortLane l r).entry i := Station.entry_of_entries he.symm i
      rw [hentry] at hb ⊢
      obtain ⟨hsame, hbound, -⟩ := h.abortLane_bound hb
      exact ⟨hbound, by rw [hsame]⟩ }

/-- Nothing works on the slots of the lane any more. -/
theorem claimsAborted_unclaimed {z : Slot} (hz : z ∈ (s.laneAt l).window) :
    (s.claimsAborted l entries).Unclaimed ⟨l, z.seq⟩ where
  digest := by
    rw [Station.claimsAborted_inDigest]
    simp
  lookup := by
    rw [Station.claimsAborted_inLookup]
    simp
  bound i hb := by
    have hentry : (s.claimsAborted l entries).entry i = (s.abortLane l r).entry i := Station.entry_of_entries he.symm i
    rw [hentry] at hb
    exact (h.abortLane_bound hb).2.2 z hz rfl

end Aborted

theorem abortLane (l : LaneNo) (r : AbortReason) : (s.abortLane l r).SlotsAgree := by
  obtain ⟨entries, heq⟩ := s.abortLane_eq l r
  have he : (s.abortLane l r).exchange.entries = entries := by rw [heq]
  have hlane : ((s.claimsAborted l entries).mapLane l (Lane.aborted l r)).SlotsAgree :=
    (h.claimsAborted he).laneChange {
      sound := .aborted l r _
      window := Nat.zero_le _
      free := fun _ => rfl
      aborts := fun _ => Lane.not_recipe_of_mem_buildAbortList
      room := fun c hb hv hcl => absurd hcl (Station.claimsAborted_burst hb hv).2
      slots := fun z hz hclaimed => absurd (h.claimsAborted_unclaimed he hz) hclaimed
      before := fun _ _ => .inl (List.append_ne_nil_of_right_ne_nil _ nofun) }
  rw [heq]
  exact hlane

/-- A burst's completion discarded, taken or ending its lane in error (Table 5.2). -/
theorem completeBurst {b : Burst} (hb : s.chunker.burst = some b) (f : Fetch) : (s.completeBurst b f).SlotsAgree := by
  have htaken : ({ s with chunker.burst := none, fetch.burst := none } : Station).SlotsAgree := h.less {
    lane := rfl
    burst := nofun
    digests := .refl _
    lookups := .refl _
    entries := fun _ _ hb => ⟨hb, rfl⟩ }
  unfold Station.completeBurst
  dsimp only
  split
  · exact htaken
  next hgo =>
    simp only [Bool.or_eq_true, beq_iff_eq, not_or, Bool.not_eq_true] at hgo
    split
    · exact (htaken.consumeBurst hgo.2 (h.slots.room b hb hgo.1) nofun _).finalCut _
    · exact htaken.abortLane _ _

/-! #### The lane commands (R114, R118, R119, R127) -/

theorem setUpLane {l : LaneNo} {r : ParkedRecord} (ht : s.setUpLane l r = .ok t) : t.SlotsAgree := by
  unfold Station.setUpLane at ht
  split at ht <;> cases ht
  next hfree =>
    obtain ⟨hstate, habort⟩ := hfree
    refine of_chunker (laneChange h (f := fun _ => Machine.openedLane r (s.poolOf r.branch)) {
      sound := .openedLane _ _
      window := Nat.zero_le _
      free := nofun
      aborts := nofun
      room := fun _ _ _ _ _ => .inr (Nat.zero_lt_succ _)
      slots := fun z hz _ => ?_
      before := fun q hq => ?_ })
    · rw [h.slots.free l hstate] at hz
      cases hz
    · exact (hq.elim (absurd habort) fun hs => absurd hstate hs.1)

theorem decideSegment {e : CmdEntry} (ht : s.decideSegment e = .ok t) : t.SlotsAgree := by
  have hl := h.lanes.decideSegment ht
  unfold Station.decideSegment at ht
  dsimp only at ht
  (repeat' split at ht) <;> cases ht
  refine h.laneChange (h.laneChange_same ?_ rfl rfl Iff.rfl rfl)
  have hsound := hl e.lane
  rwa [Station.laneAt_mapLane, if_pos rfl] at hsound

/-- CLOSE and SUSPEND end a lane that is OPEN, and so not FREE. -/
theorem endLane {x : LaneState} {l : LaneNo} (ht : s.endLane x l = .ok t) (hx : x ≠ .free) : t.SlotsAgree := by
  unfold Station.endLane at ht
  split at ht <;> cases ht
  next hopen =>
    refine finalCut (h.laneChange (h.laneChange_same ?_ rfl rfl ?_ rfl)) l
    · exact { h.lanes l with
        window := (h.lanes l).window.of_same rfl ⟨rfl, rfl⟩
        queue := (h.lanes l).queue.of_same rfl rfl
        abortFree := fun ha => absurd (hopen.symm.trans ((h.lanes l).abortFree ha)) nofun
        opened := fun _ => hx }
    · exact iff_of_false hx (by rw [hopen]; nofun)

theorem decideStored {e : CmdEntry} (ht : s.decideStored e = .ok t) : t.SlotsAgree := by
  unfold Station.decideStored at ht
  dsimp only at ht
  (repeat' split at ht) <;> cases ht
  exact h.storedSlot (b := ⟨e.lane, e.recipeSeq⟩) ‹_› _

theorem decideStoreFailed {e : CmdEntry} (ht : s.decideStoreFailed e = .ok t) : t.SlotsAgree := by
  unfold Station.decideStoreFailed at ht
  dsimp only at ht
  (repeat' split at ht) <;> cases ht
  exact h.abortLane _ _

theorem decideAbort {e : CmdEntry} (ht : s.decideAbort e = .ok t) : t.SlotsAgree := by
  unfold Station.decideAbort at ht
  split at ht <;> cases ht
  exact h.abortLane _ _

theorem takeLaneCommand {n : Nat} {decide : CmdEntry → Station → Except CmdErrorCode Station}
    (hd : ∀ e x y, x.SlotsAgree → decide e x = .ok y → y.SlotsAgree) : (s.takeLaneCommand n decide).SlotsAgree := by
  rcases s.takeLaneCommand_cases n decide with e | ⟨e, rest, -, -, -, ⟨-, hy⟩ | ⟨-, x, -, hy⟩ | ⟨-, hy⟩⟩
  · rw [e]; exact h
  · rw [hy]; exact h.of_same rfl rfl rfl rfl
  · rw [hy]; exact h.of_same rfl rfl rfl rfl
  · exact hd e { s with port.fifo := rest } _ (h.of_same rfl rfl rfl rfl) hy

end Station.SlotsAgree

end Sys2Proof.Machine
end

section
namespace Sys2Proof.Machine

/-! #### The reports of the lane unit (R122, R125) -/

/-- A report other than RECIPE. -/
def Report.NotRecipe (r : Report) : Prop :=
  ∀ lane seq offset length fp kind locator, r ≠ .recipe lane seq offset length fp kind locator

/-- A lane's first duty but for its RECIPE leaves window and lane as the slots' claims need them. -/
structure Lane.KeepsSlots (l y : Lane) : Prop where
  window : ∃ f : Slot → Slot, y.window = l.window.map f ∧ ∀ z, (f z).seq = z.seq ∧ (f z).state.view = z.state.view
  free : y.state = .free → l.state = .free ∨ l.window = []
  aborts : ∀ r ∈ y.abortList, r ∈ l.abortList

theorem Lane.KeepsSlots.of_window {l y : Lane} (hw : y.window = l.window)
    (hf : y.state = .free → l.state = .free ∨ l.window = []) (ha : ∀ r ∈ y.abortList, r ∈ l.abortList) :
    l.KeepsSlots y :=
  ⟨⟨id, by rw [hw, List.map_id], fun _ => ⟨rfl, rfl⟩⟩, hf, ha⟩

theorem Slot.storeReported_view (z : Slot) : z.storeReported.seq = z.seq ∧ z.storeReported.state.view = z.state.view := by
  unfold Slot.storeReported
  split
  next hs =>
    rw [hs]
    exact ⟨rfl, rfl⟩
  next => exact ⟨rfl, rfl⟩

section Duties
variable {l : Lane} {n : LaneNo} {d : Report × Lane}

theorem Lane.dutyAbort_keeps (hd : l.dutyAbort = some d) : d.1 ∈ l.abortList ∧ l.KeepsSlots d.2 := by
  unfold Lane.dutyAbort at hd
  split at hd <;> cases hd
  next r rest ha =>
    rw [ha]
    exact ⟨List.mem_cons_self, .of_window rfl .inl fun r' hr => by rw [ha]; exact List.mem_cons_of_mem r hr⟩

theorem Lane.dutyOpened_keeps (hd : l.dutyOpened n = some d) : d.1.NotRecipe ∧ l.KeepsSlots d.2 := by
  unfold Lane.dutyOpened at hd
  split at hd <;> cases hd
  exact ⟨nofun, .of_window rfl .inl fun _ => id⟩

theorem Lane.dutySegment_keeps (hd : l.dutySegment n = some d) : d.1.NotRecipe ∧ l.KeepsSlots d.2 := by
  unfold Lane.dutySegment at hd
  (repeat' split at hd) <;> cases hd
  exact ⟨nofun, .of_window rfl .inl fun _ => id⟩

theorem Lane.dutyStore_keeps (hd : l.dutyStore n = some d) : d.1.NotRecipe ∧ l.KeepsSlots d.2 := by
  unfold Lane.dutyStore at hd
  split at hd <;> cases hd
  next x _ =>
    refine ⟨nofun, ⟨fun z => if z.seq = x.seq then z.storeReported else z, rfl, fun z => ?_⟩, .inl, fun _ => id⟩
    dsimp only
    split
    · exact z.storeReported_view
    · exact ⟨rfl, rfl⟩

theorem Lane.dutyDrained_keeps (hd : l.dutyDrained n = some d) : d.1.NotRecipe ∧ l.KeepsSlots d.2 := by
  unfold Lane.dutyDrained at hd
  split at hd
  next he =>
    have hempty : l.window = [] := by
      simp only [Bool.and_eq_true, List.isEmpty_iff] at he
      exact he.1
    split at hd <;> cases hd <;> exact ⟨nofun, .of_window rfl (fun _ => .inr hempty) fun _ => id⟩
  next => cases hd

/-- The RECIPE of the head slot (R122). -/
theorem Lane.dutyRecipe_spec (hd : l.dutyRecipe n = some d) : ∃ z rest kind offset length fp locator,
    l.window = z :: rest ∧ z.state = .resolved kind ∧
      d.1 = .recipe n z.seq offset length fp kind locator ∧ d.2.window = rest ∧ d.2.state = l.state ∧
      d.2.abortList = l.abortList ∧ d.2.record.nextRecipe = l.record.nextRecipe := by
  unfold Lane.dutyRecipe at hd
  split at hd
  next z rest hw =>
    split at hd <;> cases hd
    next kind hk =>
      have hstate : z.state = .resolved kind := by
        unfold Slot.resolvedKind at hk
        split at hk <;> cases hk
        assumption
      exact ⟨z, rest, kind, _, _, _, _, hw, hstate, rfl, rfl, rfl, rfl, (ParkedRecord.count_place ..).2.1⟩
  next => cases hd

end Duties

namespace Station.SlotsAgree
variable {s t : Station} (h : s.SlotsAgree)
include h

/-- A lane's report other than RECIPE made ready. -/
theorem report_other {l : LaneNo} {r : Report} {y : Lane} (hready : s.lane.ready = none) (hr : r.NotRecipe)
    (hy : (s.laneAt l).KeepsSlots y) (ht : t.LanesSound) (hself : t.laneAt l = y)
    (hothers : ∀ k, k ≠ l → t.laneAt k = s.laneAt k) (htr : t.lane.ready = some r) (hk : t.chunker = s.chunker)
    (hx : t.exchange = s.exchange) : t.SlotsAgree := by
  obtain ⟨⟨f, hw, hf⟩, hfree, haborts⟩ := hy
  have hs (b : Binding) : ¬s.recipeHeld b := by
    rintro ⟨offset, length, fp, kind, locator, hb⟩
    rw [hready] at hb
    cases hb
  have hn (b : Binding) : ¬t.recipeHeld b := by
    rintro ⟨offset, length, fp, kind, locator, hb⟩
    rw [htr] at hb
    exact hr _ _ _ _ _ _ _ (Option.some.inj hb)
  refine h.laneStep (l := l) ?_
  constructor
  case lanes => exact ht
  case others => exact hothers
  case chunker => exact hk
  case exchange => exact hx
  case window =>
    rw [hself, hw, List.length_map]
    exact h.slots.windows l
  case free =>
    intro hstate
    rw [hself] at hstate ⊢
    rw [hw, (hfree hstate).elim (h.slots.free l) id]
    rfl
  case aborts =>
    rw [hself]
    exact fun r hr => h.slots.aborts l r (haborts r hr)
  case room =>
    intro c _ _ _ hroom
    rw [hself, Lane.HasRoom, hw, List.length_map]
    refine hroom.imp_left fun ⟨z, hz, hstate⟩ => ⟨f z, List.mem_map_of_mem hz, ?_⟩
    exact (SlotState.eq_of_view (hf z).2 (by rw [hstate]; exact nofun)).trans hstate
  case slots =>
    rintro q x ⟨z, hz, rfl, rfl⟩ -
    refine .inl ⟨(f z).state, ⟨f z, ?_, (hf z).1, rfl⟩, (hf z).2⟩
    rw [hself, hw]
    exact List.mem_map_of_mem hz
  case kept => exact fun b hb => absurd hb (hs b)
  case held => exact fun b hb => absurd hb (hn b)

/-- The RECIPE of the head slot made ready: the slot leaves the window, and stands just before it. -/
theorem report_recipe {l : LaneNo} {d : Report × Lane} (hready : s.lane.ready = none)
    (hstate : (s.laneAt l).state ≠ .free) (hd : (s.laneAt l).dutyRecipe l = some d) (ht : t.LanesSound)
    (hself : t.laneAt l = d.2) (hothers : ∀ k, k ≠ l → t.laneAt k = s.laneAt k) (htr : t.lane.ready = some d.1)
    (hk : t.chunker = s.chunker) (hx : t.exchange = s.exchange) : t.SlotsAgree := by
  obtain ⟨z, rest, kind, offset, length, fp, locator, hw, hz, hr, hrest, hst, hab, hnext⟩ := Lane.dutyRecipe_spec hd
  have hlen : (s.laneAt l).window.length = rest.length + 1 := by rw [hw, List.length_cons]
  have hheld {b : Binding} : t.recipeHeld b ↔ b = ⟨l, z.seq⟩ := by
    unfold Station.recipeHeld
    rw [htr, hr]
    constructor
    · rintro ⟨_, _, _, _, _, hb⟩
      cases b
      cases hb
      rfl
    · rintro rfl
      exact ⟨_, _, _, _, _, rfl⟩
  refine h.laneStep (l := l) ?_
  constructor
  case lanes => exact ht
  case others => exact hothers
  case chunker => exact hk
  case exchange => exact hx
  case window =>
    have := h.slots.windows l
    rw [hself, hrest]
    omega
  case free => exact fun hf => absurd (hst.symm.trans (hself ▸ hf)) hstate
  case aborts =>
    rw [hself, hab]
    exact h.slots.aborts l
  case room =>
    intro c _ _ _ hroom
    rw [hself, Lane.HasRoom, hrest]
    rcases hroom with ⟨y, hy, hys⟩ | hlt
    · rw [hw] at hy
      rcases List.mem_cons.1 hy with rfl | hy
      · rw [hz] at hys
        cases hys
      · exact .inl ⟨y, hy, hys⟩
    · exact .inr (by omega)
  case slots =>
    rintro q x ⟨y, hy, rfl, rfl⟩ -
    rw [hw] at hy
    rcases List.mem_cons.1 hy with rfl | hy
    · exact .inr ⟨⟨kind, hz⟩, hheld.2 rfl⟩
    · exact .inl ⟨y.state, ⟨y, by rwa [hself, hrest], rfl, rfl⟩, rfl⟩
  case kept =>
    rintro b ⟨_, _, _, _, _, hb⟩
    rw [hready] at hb
    cases hb
  case held =>
    rintro b hb
    rw [hheld.1 hb]
    refine .inr ⟨rfl, .inr ⟨by rw [hself, hst]; exact hstate, ?_⟩⟩
    rw [hself, hrest, hnext, ← hlen]
    exact (h.lanes l).window.numbered 0 z (by rw [hw]; rfl)

/-- A lane's first duty made ready, where the lane unit holds no report (R125). -/
theorem makeLaneReport (hready : s.lane.ready = none) (l : LaneNo) : (s.makeLaneReport l).SlotsAgree := by
  have ht := h.lanes.makeLaneReport l
  cases hd : (s.laneAt l).duty l with
  | none =>
    rw [Station.makeLaneReport, hd]
    exact h
  | some d =>
    have hmade : s.makeLaneReport l = { s.mapLane l (fun _ => d.2) with lane.ready := some d.1, lane.next := l + 1 } := by
      rw [Station.makeLaneReport, hd]
    rw [hmade] at ht ⊢
    have hself : ({ s.mapLane l (fun _ => d.2) with lane.ready := some d.1, lane.next := l + 1 } : Station).laneAt l =
        d.2 := (Station.laneAt_mapLane l l (fun _ => d.2) s).trans (if_pos rfl)
    have hothers (k : LaneNo) (hk : k ≠ l) :
        ({ s.mapLane l (fun _ => d.2) with lane.ready := some d.1, lane.next := l + 1 } : Station).laneAt k =
          s.laneAt k := (Station.laneAt_mapLane l k (fun _ => d.2) s).trans (if_neg hk.symm)
    have other (hd : d.1.NotRecipe ∧ (s.laneAt l).KeepsSlots d.2) :=
      h.report_other hready hd.1 hd.2 ht hself hothers rfl rfl rfl
    rcases Lane.duty_cases hd with hd | ⟨-, hstate, hd | ⟨-, hd | hd | hd | hd⟩⟩
    · obtain ⟨hmem, hkeeps⟩ := Lane.dutyAbort_keeps hd
      exact other ⟨h.slots.aborts l _ hmem, hkeeps⟩
    · exact other (Lane.dutyOpened_keeps hd)
    · exact other (Lane.dutySegment_keeps hd)
    · exact other (Lane.dutyStore_keeps hd)
    · exact h.report_recipe hready hstate hd ht hself hothers rfl rfl rfl
    · exact other (Lane.dutyDrained_keeps hd)

/-- The report held is appended, where no entry waits for it (R122). -/
theorem readyCleared (hno : ∀ b, s.recipeHeld b → ∀ i, (s.entry i).binding ≠ some b) :
    ({ s with lane.ready := none } : Station).SlotsAgree where
  lanes := h.lanes.of_lanes rfl
  slots := { h.slots with
    bound := fun i b hb => .inl ((h.slots.bound i b hb).resolve_right fun hheld => hno b hheld.2 i hb)
    held := fun _ ⟨_, _, _, _, _, hb⟩ => nomatch hb }

/-- The entry of a slot whose RECIPE is appended is freed, and then none is bound to it. -/
theorem recipeReported_unbound (b : Binding) (i : EntryIndex) :
    ((s.recipeReported b.lane b.seq).entry i).binding ≠ some b := by
  unfold Station.recipeReported
  split
  next j hj =>
    rw [Station.entry_setEntry]
    split
    next =>
      rw [Entry.release_eq, Entry.freedOrOwing]
      split <;> exact nofun
    next hij => exact fun hb => hij (h.slots.once j i b (Station.boundEntry_eq_some.1 hj).1 hb)
  next hnone => exact beq_eq_false_iff_ne.1 (lowestFind_eq_none.1 hnone i)

/-- The lane unit told that its report is appended. -/
theorem tellLane {r : Report} (hr : s.lane.ready = some r) : (s.tellProducer .lane r).SlotsAgree := by
  unfold Station.tellProducer
  dsimp only
  split
  next l q offset length fp kind locator =>
    have hwork : (s.recipeReported l q).SlotsAgree := h.of_work (.recipeReported l q)
    have hcleared := hwork.readyCleared fun b hb => by
      obtain ⟨_, _, _, _, _, hb⟩ := (Station.recipeHeld_of_ready (s := s) (t := s.recipeReported l q) (by simp)).1 hb
      rw [hr] at hb
      cases b
      cases hb
      exact h.recipeReported_unbound ⟨_, _⟩
    have heq : ({ s with lane.ready := none } : Station).recipeReported l q =
        { s.recipeReported l q with lane.ready := none } := by
      unfold Station.recipeReported
      have hbound : ({ s with lane.ready := none } : Station).boundEntry ⟨l, q⟩ = s.boundEntry ⟨l, q⟩ := rfl
      rw [hbound]
      cases s.boundEntry ⟨l, q⟩ <;> rfl
    rw [heq]
    exact hcleared
  next hne =>
    refine h.readyCleared fun b ⟨_, _, _, _, _, hb⟩ => ?_
    rw [hr] at hb
    exact absurd (Option.some.inj hb) (hne _ _ _ _ _ _ _)

theorem appendReport {p : Producer} {r : Report} (hr : s.readyReport p = some r) : (s.appendReport p r).SlotsAgree := by
  unfold Station.appendReport
  split
  · cases p with
    | lane =>
      refine tellLane ?_ hr
      exact h.of_same rfl rfl rfl rfl
    | _ => exact h.of_same rfl rfl rfl rfl
  · exact h.of_same rfl rfl rfl rfl

end Station.SlotsAgree

end Sys2Proof.Machine
end

section
namespace Sys2Proof.Machine

/-! #### The other commands -/

theorem Station.slotsAgree_reset {s : Station} (hl : s.lane = LaneUnit.reset) (hk : s.chunker = Chunker.reset)
    (hx : s.exchange = Exchange.reset) : s.SlotsAgree := by
  have hlane (l : LaneNo) : s.laneAt l = {} := by
    rw [Station.laneAt, hl]
    exact Vector.getElem_replicate l.isLt
  have hentry (i : EntryIndex) : s.entry i = {} := by
    rw [Station.entry, hx]
    exact Vector.getElem_replicate i.isLt
  have hready (b : Binding) : ¬s.recipeHeld b := by
    rw [Station.recipeHeld, hl]
    rintro ⟨_, _, _, _, _, hb⟩
    cases hb
  refine ⟨Station.lanesSound_reset hl, ?_⟩
  constructor
  case windows => exact fun l => by rw [hlane]; exact Nat.zero_le _
  case free => exact fun l _ => by rw [hlane]
  case room => exact fun b hb => by rw [hk] at hb; cases hb
  case digests => rw [hk]; exact ⟨List.nodup_nil, nofun⟩
  case lookups => rw [hx]; exact ⟨List.nodup_nil, nofun⟩
  case bound => exact fun i b hb => by rw [hentry] at hb; cases hb
  case once => exact fun i j b hb => by rw [hentry] at hb; cases hb
  case held => exact fun b hb => absurd hb (hready b)
  case aborts => exact fun l r hr => by rw [hlane] at hr; cases hr

namespace Station.SlotsAgree
variable {s t : Station} (h : s.SlotsAgree)
include h

/-- A burst issued for a lane with room for its first byte (R100, R102). -/
theorem issueBurst {l : LaneNo} (hl : s.chosenLane = some l) (d : Descriptor) : (s.issueBurst l d).SlotsAgree := by
  have hready : (s.laneAt l).windowReady = true := by
    have he := ringFind_has hl
    simp only [Lane.eligible, Bool.and_eq_true] at he
    exact he.2
  have hlane : (s.issueBurst l d).lane = s.lane := by simp
  have hchunker : (s.issueBurst l d).chunker = { s.chunker with
      burst := some ⟨l, d.seq, min (Config.minChunk s.averageChunk) (d.length - d.consumed), false⟩
      pointer := l + 1 } := by simp [Station.issueBurst]
  have hsame : ({ s.issueBurst l d with chunker := s.chunker } : Station).SlotsAgree :=
    h.of_same hlane rfl (by simp) (by simp)
  refine ⟨hsame.lanes.of_lanes rfl, { hsame.slots with room := ?_, digests := ?_ }⟩
  · intro b hb _
    rw [hchunker] at hb
    cases hb
    rw [Station.laneAt_of_lane hlane]
    exact Lane.windowReady_iff.1 hready
  · rw [hchunker]
    exact hsame.slots.digests

/-- The head of the digest FIFO passes to the idle engine (R109). -/
theorem startDigest {d : DigestEntry} {rest : List DigestEntry} (he : s.chunker.engine = none)
    (hd : s.chunker.digests = d :: rest) :
    ({ s with chunker.engine := some ⟨d, false⟩, chunker.digests := rest } : Station).SlotsAgree :=
  h.less {
    lane := rfl
    burst := fun _ hb _ => hb
    digests := by
      rw [Chunker.inDigest_eq s.chunker, he, hd, Chunker.inDigest_eq]
      simpa [DigestJob.chunk] using
        (List.perm_append_singleton (d.lane, d.seq) (rest.map fun d => (d.lane, d.seq))).subperm
    lookups := .refl _
    entries := fun _ _ hb => ⟨hb, rfl⟩ }

/-- A void chunk leaves the engine (R110). -/
theorem engineVoid {j : DigestJob} (he : s.chunker.engine = some j) (hv : j.void = true) :
    ({ s with chunker.engine := none } : Station).SlotsAgree :=
  h.less {
    lane := rfl
    burst := fun _ hb _ => hb
    digests := by
      obtain ⟨d, v⟩ := j
      subst hv
      rw [Chunker.inDigest_eq, Chunker.inDigest_eq, he]
      exact .refl _
    lookups := .refl _
    entries := fun _ _ hb => ⟨hb, rfl⟩ }

/-- A host release joins the tag wait queue (R69). -/
theorem pushRelease (k : Key) (l : Locator) (c : Cookie) (p : StationNo) : ({ s with
    exchange.waitQueue := s.exchange.waitQueue ++ [.hostRelease k l c p] } : Station).SlotsAgree :=
  h.less {
    lane := rfl
    burst := fun _ hb _ => hb
    digests := .refl _
    lookups := by simp [Exchange.inLookup]
    entries := fun _ _ hb => ⟨hb, rfl⟩ }

theorem decideRelease {e : CmdEntry} (ht : s.decideRelease e = some t) : t.SlotsAgree := by
  unfold Station.decideRelease at ht
  dsimp only at ht
  (repeat' split at ht) <;> cases ht
  case isFalse.isFalse.isFalse.isFalse => exact h.pushRelease _ _ _ _
  all_goals exact h.of_same rfl rfl rfl rfl

theorem takeHead {n : Nat} {decide : CmdEntry → Station → Option Station}
    (hd : ∀ e x y, x.SlotsAgree → decide e x = some y → y.SlotsAgree) : (s.takeHead n decide).SlotsAgree := by
  rcases s.takeHead_cases n decide with e | ⟨e, rest, -, -, -, hy⟩
  · rw [e]; exact h
  · exact hd e { s with port.fifo := rest } _ (h.of_same rfl rfl rfl rfl) hy

end Station.SlotsAgree

/-! ### Slots stay matched (R63, R69, R108, R115, R122) -/

theorem exec_keeps_slotsAgree {c : Instr} {s t : State} (hd : Instr.isDeadlineRow c = false)
    (ha : s.station.DeadlinesActed) (hs : s.station.SlotsAgree) (h : exec c s = .next t) : t.station.SlotsAgree := by
  cases hc : Instr.touchesSlots c with
  | false => exact hs.of_work (exec_entryWork hd hc ha h)
  | true =>
    rw [← Station.settled_of_acted ha] at hs
    cases c with
    | coldReset => cases h; exact Station.slotsAgree_reset rfl rfl rfl
    | warmReset =>
      cases h
      dsimp only
      split
      · exact hs.of_same rfl rfl rfl rfl
      · exact Station.slotsAgree_reset rfl rfl rfl
    | openLane | resume => cases h; exact hs.takeLaneCommand fun _ _ _ hx hy => hx.setUpLane hy
    | segment => cases h; exact hs.takeLaneCommand fun _ _ _ hx hy => hx.decideSegment hy
    | stored => cases h; exact hs.takeLaneCommand fun _ _ _ hx hy => hx.decideStored hy
    | storeFailed => cases h; exact hs.takeLaneCommand fun _ _ _ hx hy => hx.decideStoreFailed hy
    | close | suspend => cases h; exact hs.takeLaneCommand fun _ _ _ hx hy => hx.endLane hy nofun
    | abort => cases h; exact hs.takeLaneCommand fun _ _ _ hx hy => hx.decideAbort hy
    | release => cases h; exact hs.takeHead fun _ _ _ hx hy => hx.decideRelease hy
    | burstIssue m =>
      cases h
      have hu : ({ s.station.settled with fetch.busMaster := m } : Station).SlotsAgree := hs.of_same rfl rfl rfl rfl
      dsimp only
      (repeat' split)
      · exact hu
      · exact hu.issueBurst ‹_› _
      all_goals exact hu
    | burstCompletion =>
      cases h
      dsimp only
      (repeat' split)
      · exact hs.completeBurst ‹_› _
      all_goals exact hs
    | digestStart =>
      cases h
      dsimp only
      split
      · exact hs.startDigest ‹_› ‹_›
      · exact hs
    | digestCompletion =>
      cases h
      dsimp only
      split
      next j hj =>
        split
        next hv => exact hs.engineVoid hj hv
        next hv =>
          obtain ⟨d, v⟩ := j
          rw [Bool.not_eq_true] at hv
          subst hv
          exact hs.digestDone hj
      next => exact hs
    | tagGrant =>
      cases h
      dsimp only
      split
      · exact hs.grant ‹_› _
      · exact hs
    | laneReportReady =>
      cases h
      dsimp only
      split
      next => exact hs
      next hready =>
        split
        · exact hs.makeLaneReport (Option.not_isSome_iff_eq_none.1 hready) _
        · exact hs
    | reportAppend =>
      cases h
      dsimp only
      (repeat' split)
      · exact hs.appendReport ‹_›
      all_goals exact hs
    | _ => cases hc

theorem slotsAgree_keptByDeadlines : KeptByDeadlines Station.SlotsAgree := fun s d ds _ h =>
  Station.SlotsAgree.of_work (s := { s with clock.reached := ds }) (h.of_same rfl rfl rfl rfl) (.actDeadline d)

theorem step_keeps_slotsAgree {s t : State} (hs : s.station.SlotsAgree) (h : step s = .next t) : t.station.SlotsAgree :=
  step_keeps (fun _ h => h) slotsAgree_keptByDeadlines (fun _ _ h => h.of_same)
    (fun _ _ _ hd ha hs h => exec_keeps_slotsAgree hd ha hs h) hs h

/-! ### What bounds the queues (R69, R108, R115) -/

/-- The lanes and numbers of all slots. -/
def Station.slotNames (s : Station) : List (LaneNo × Word) :=
  (List.finRange 32).flatMap fun l => (s.laneAt l).window.map fun y => (l, y.seq)

theorem Station.mem_slotNames {s : Station} {l : LaneNo} {q : Word} {x : SlotState} (h : s.hasSlot l q x) :
    (l, q) ∈ s.slotNames := by
  obtain ⟨y, hy, rfl, -⟩ := h
  exact List.mem_flatMap.2 ⟨l, List.mem_finRange l, List.mem_map_of_mem hy⟩

namespace Station.SlotsMatched
variable {s : Station} (h : s.SlotsMatched)
include h

theorem slotNames_length : s.slotNames.length ≤ 2048 := by
  have hsum := List.sum_le_card_nsmul ((List.finRange 32).map fun l =>
    ((s.laneAt l).window.map fun y => (l, y.seq)).length) 64 fun n hn => by
      obtain ⟨l, -, rfl⟩ := List.mem_map.1 hn
      rw [List.length_map]
      exact h.windows l
  rw [Station.slotNames, List.length_flatMap]
  simpa using hsum

/-- Slots of their own, of lanes with at most 64 each, are at most 2,048. -/
theorem length_le_of_slots {ks : List (LaneNo × Word)} (hd : ks.Nodup) {x : SlotState}
    (hs : ∀ k ∈ ks, s.hasSlot k.1 k.2 x) : ks.length ≤ 2048 :=
  (hd.subperm fun k hk => Station.mem_slotNames (hs k hk)).length_le.trans h.slotNames_length

theorem digests_length : s.chunker.inDigest.length ≤ 2048 := h.length_le_of_slots h.digests.1 h.digests.2

theorem lookups_length : s.exchange.inLookup.length ≤ 2048 := h.length_le_of_slots h.lookups.1 h.lookups.2

end Station.SlotsMatched

/-- A request of the tag wait queue is a lookup or a host release. -/
theorem Exchange.waitQueue_length (x : Exchange) : x.waitQueue.length = x.inLookup.length + x.hostReleases := by
  unfold Exchange.inLookup Exchange.hostReleases
  induction x.waitQueue with
  | nil => rfl
  | cons r rs ih =>
    cases r with
    | lookup | hostRelease =>
      simp only [List.length_cons, List.filterMap_cons, List.countP_cons, TagRequest.isHostRelease, ih,
        Bool.false_eq_true, if_true, if_false]
      omega

/-- Settles O11: each operation takes claims on slots, moves a slot that nothing claims, or gives a claim. -/
theorem slotsStayMatchedAndBounded : Obligations.SlotsStayMatchedAndBounded := by
  refine ⟨fun s t hl hs h => (step_keeps_slotsAgree ⟨hl, hs⟩ h).slots, fun s h => ?_⟩
  refine ⟨h.windows, h.digests_length, ?_, h.lookups_length, fun hb => ?_⟩
  · have hdigests := h.digests_length
    rw [Chunker.inDigest_eq, List.length_append, List.length_map] at hdigests
    omega
  · have hlookups := h.lookups_length
    have hreleases := hb.hostReleases
    rw [Exchange.waitQueue_length]
    omega

end Sys2Proof.Machine
end
